-- ==== Sys2Proof/Word.lean ====
section
/-! DEFINITION. Word types of the station: the bit vectors and the bounded numbers its chapters name. -/

namespace Sys2Proof

/-- One byte, on the line or on the host port. -/
abbrev Byte := BitVec 8
/-- A topic, 0x0000 to 0xFFFF (spec/00_scope.md, Terms). -/
abbrev Topic := BitVec 16
/-- The 32-bit unit tag of R41. -/
abbrev UnitTag := BitVec 32
/-- A value of the 32-bit station clock (R17). -/
abbrev Stamp := BitVec 32
/-- A sequence number or an epoch number, counted modulo 256. -/
abbrev SeqNo := BitVec 8
/-- A station number, 0 to 31. -/
abbrev Station := Fin 32
/-- A frame class, 0 (most urgent) to 7 (R8). -/
abbrev FrameClass := Fin 8
/-- A receive queue number, 0 to 7 (R87). -/
abbrev QueueNo := Fin 8
/-- A latest-value slot number, 0 to 63 (R103). -/
abbrev SlotNo := Fin 64
/-- An index of the subscription table, 0 to 31 (R62). -/
abbrev SubIndex := Fin 32
/-- An index of the publication table, 0 to 31 (R117). -/
abbrev PubIndex := Fin 32
/-- A position of the recall list, 0 to 7 (R145). -/
abbrev RecallPos := Fin 8

end Sys2Proof
end

