-- ==== Sys2Proof/Syntax.lean ====
section
/-! DEFINITION. The commands of the block: one constructor per row of spec/opcode_table.json. -/

namespace Sys2Proof

/-- The level of the line in one bit time (chapter 1.1). -/
inductive LineLevel
  | active
  | idle
  deriving DecidableEq, Repr

/-- The commands and events of the table, one constructor a row, in the table's order.
The command rows of the host port (`configure` to `unknownCommand`) are the TAKING of a command by its owner (R174);
their operand is the command's argument bytes. -/
inductive Instr
  /-- POWER_ON (R186): the supply comes up; the part is held in reset. -/
  | powerOn
  /-- RESET_PIN (R192): the RESET pin has been low for `lowPeriods` periods of the 16 MHz CLKIN, and now rises or is still
  low. -/
  | resetPin (lowPeriods : Nat) (rises : Bool := true)
  /-- RESET_END (R192): the power-on hold ends, or else the reset ends. -/
  | resetEnd
  /-- LINE_ACTIVITY (R19, R3, R6): an active run of `activeRun` bit times up to now, followed by `idleAfter` idle bit times;
  with none, the line is still active. -/
  | lineActivity (activeRun idleAfter : Nat)
  /-- GAP_END (R5): the twelfth idle bit time ends. -/
  | gapEnd
  /-- SLOT_CYCLE_START (R19): slot 255 ends with the line idle. -/
  | slotCycleStart
  /-- BOOKED_SLOT_START (R26): the booked contention slot begins with the line idle. -/
  | bookedSlotStart
  /-- SEND_END (R15): the last stop bit of an own frame has been sent. -/
  | sendEnd
  /-- COLLISION (R31): the line levels received since the attempt's first bit time, one a bit time, up to the first mismatch
  that the echo comparator reports. -/
  | collision (received : List LineLevel := [])
  /-- JAM_END (R32): the jam has been sent. -/
  | jamEnd
  /-- BLOCKED_LINE_EVENT (R7): the blocked-line measure passes 1024 bit times. -/
  | blockedLineEvent
  /-- HEADER_COMPLETE (R13): the line levels up to the sixth stop bit, one a bit time, since the start mark. -/
  | headerComplete (levels : List LineLevel)
  /-- FRAME_END (R14): the line levels up to the frame's end, one a bit time, since the last event of this frame. -/
  | frameEnd (levels : List LineLevel)
  /-- LISTEN_WINDOW_EXPIRY (R44). -/
  | listenWindowExpiry
  /-- PRESENCE_TIMER_EXPIRY (R49). -/
  | presenceTimerExpiry
  /-- SILENCE_DEADLINE_EXPIRY (R59) of peer `peer`. -/
  | silenceDeadlineExpiry (peer : Station)
  /-- FRESHNESS_DEADLINE_EXPIRY (R108) of slot `slot`. -/
  | freshnessDeadlineExpiry (slot : SlotNo)
  /-- PERIODIC_TIMER_EXPIRY (R123) of publication `index`. -/
  | periodicTimerExpiry (index : PubIndex)
  /-- HOLD_OFF_EXPIRY (R130) of publication `index`. -/
  | holdOffExpiry (index : PubIndex)
  /-- RECALL_DEADLINE_EXPIRY (R151) of recall list position `position`. -/
  | recallDeadlineExpiry (position : RecallPos)
  /-- COMMAND_TRANSACTION (R173): SEL rises after the whole bytes `bytes`, the first not 0x00, and `trailingBits` more bits. -/
  | commandTransaction (bytes : List Byte) (trailingBits : Nat)
  /-- FETCH_TRANSACTION (R175): SEL rises after `wholeBytes` bytes, the host's first byte 0x00, and `trailingBits` more bits. -/
  | fetchTransaction (wholeBytes trailingBits : Nat)
  /-- SHORT_TRANSACTION (R169): SEL rises after `clocks` clocks, fewer than eight. -/
  | shortTransaction (clocks : Nat)
  /-- CONFIGURE (R41). -/
  | configure (args : List Byte)
  /-- JOIN (R43). -/
  | join (args : List Byte)
  /-- LEAVE (R53). -/
  | leave (args : List Byte)
  /-- STATUS (R178). -/
  | status (args : List Byte)
  /-- SOFT_RESET (R187). -/
  | softReset (args : List Byte)
  /-- SET_ATTENTION_MASK (R183). -/
  | setAttentionMask (args : List Byte)
  /-- READ_NOTICE (R181). -/
  | readNotice (args : List Byte)
  /-- READ_ROSTER (R60). -/
  | readRoster (args : List Byte)
  /-- SUBSCRIBE (R63). -/
  | subscribe (args : List Byte)
  /-- UNSUBSCRIBE (R66). -/
  | unsubscribe (args : List Byte)
  /-- READ_SUBSCRIPTION (R67). -/
  | readSubscription (args : List Byte)
  /-- POP (R95). -/
  | pop (args : List Byte)
  /-- PEEK (R96). -/
  | peek (args : List Byte)
  /-- FLUSH (R97). -/
  | flush (args : List Byte)
  /-- QUEUE_STATUS (R98). -/
  | queueStatus (args : List Byte)
  /-- READ_SLOT (R112). -/
  | readSlot (args : List Byte)
  /-- LIST_CHANGED_SLOTS (R113). -/
  | listChangedSlots (args : List Byte)
  /-- DECLARE (R118). -/
  | declare (args : List Byte)
  /-- WRITE_VALUE (R119). -/
  | writeValue (args : List Byte)
  /-- WITHDRAW (R120). -/
  | withdraw (args : List Byte)
  /-- READ_PUBLICATION (R121). -/
  | readPublication (args : List Byte)
  /-- RECALL (R146). -/
  | recallCmd (args : List Byte)
  /-- EPOCH (R157). -/
  | epoch (args : List Byte)
  /-- SNAPSHOT_OPEN (R164). -/
  | snapshotOpen (args : List Byte)
  /-- SNAPSHOT_READ (R165). -/
  | snapshotRead (args : List Byte)
  /-- SNAPSHOT_RELEASE (R165). -/
  | snapshotRelease (args : List Byte)
  /-- UNKNOWN_COMMAND (R191): a taken command code that names no command. -/
  | unknownCommand (code : Byte) (args : List Byte)
  /-- TRANSACTION_BEGIN (R170): SEL falls. -/
  | transactionBegin
  deriving DecidableEq, Repr

end Sys2Proof
end

