-- ==== Sys2Proof/Machine/Codes.lean ====
section
/-! DEFINITION. Command codes of the host port (12_formats_and_pins.md, 12.5). -/

namespace Sys2Proof.Machine

/-- The command that owns a code and its argument bytes (12.5); a code the table does not name is an unknown command
(R191). -/
def commandOf (code : Byte) (args : List Byte) : Instr :=
  match code.toNat with
  | 0x01 => .configure args
  | 0x02 => .join args
  | 0x03 => .leave args
  | 0x04 => .status args
  | 0x05 => .softReset args
  | 0x06 => .setAttentionMask args
  | 0x07 => .readNotice args
  | 0x10 => .readRoster args
  | 0x20 => .subscribe args
  | 0x21 => .unsubscribe args
  | 0x22 => .readSubscription args
  | 0x30 => .pop args
  | 0x31 => .peek args
  | 0x32 => .flush args
  | 0x33 => .queueStatus args
  | 0x40 => .readSlot args
  | 0x41 => .listChangedSlots args
  | 0x50 => .declare args
  | 0x51 => .writeValue args
  | 0x52 => .withdraw args
  | 0x53 => .readPublication args
  | 0x60 => .recallCmd args
  | 0x70 => .epoch args
  | 0x71 => .snapshotOpen args
  | 0x72 => .snapshotRead args
  | 0x73 => .snapshotRelease args
  | _ => .unknownCommand code args

/-- The codes that 12.5 names. -/
def knownCodes : List Nat :=
  [0x01, 0x02, 0x03, 0x04, 0x05, 0x06, 0x07, 0x10, 0x20, 0x21, 0x22, 0x30, 0x31, 0x32, 0x33, 0x40, 0x41,
   0x50, 0x51, 0x52, 0x53, 0x60, 0x70, 0x71, 0x72, 0x73]

/-- A code that names no command and is not the start of a fetch (R191). -/
def isUnknownCode (code : Byte) : Bool := code != 0 && !knownCodes.contains code.toNat

end Sys2Proof.Machine
end

