-- ==== Sys2Proof/WellFormed.lean ====
section
/-! DEFINITION. Which commands are well formed: the operand ranges their rows give. -/

namespace Sys2Proof

/-- A length byte counts at most 255 argument bytes (R169). -/
def argsFit (args : List Byte) : Bool := decide (args.length ≤ 255)

/-- The operands are in the ranges the spec gives them: an activity has an active bit time (R3), the events of an echo and
of a frame carry line levels (R13, R14, R16), a transaction of a whole byte or more is a command (first byte not 0x00) or a
fetch, its trailing bits number at most seven, a short transaction has fewer than eight clocks (R169), an argument list
fits its length byte, and an unknown code is one that 12.5 does not name (R191). -/
def Instr.wf : Instr → Bool
  | .powerOn | .resetPin _ _ | .resetEnd => true
  | .lineActivity run _ => decide (0 < run)
  | .gapEnd | .slotCycleStart | .bookedSlotStart | .sendEnd | .jamEnd | .blockedLineEvent => true
  | .collision levels | .headerComplete levels | .frameEnd levels => !levels.isEmpty
  | .listenWindowExpiry | .presenceTimerExpiry | .silenceDeadlineExpiry _ | .freshnessDeadlineExpiry _
  | .periodicTimerExpiry _ | .holdOffExpiry _ | .recallDeadlineExpiry _ => true
  | .commandTransaction bytes trailing => (bytes.head?.any (· != 0)) && decide (trailing < 8)
  | .fetchTransaction whole trailing => decide (0 < whole) && decide (trailing < 8)
  | .shortTransaction clocks => decide (clocks < 8)
  | .configure a | .join a | .leave a | .status a | .softReset a | .setAttentionMask a | .readNotice a | .readRoster a
  | .subscribe a | .unsubscribe a | .readSubscription a | .pop a | .peek a | .flush a | .queueStatus a | .readSlot a
  | .listChangedSlots a | .declare a | .writeValue a | .withdraw a | .readPublication a | .recallCmd a | .epoch a
  | .snapshotOpen a | .snapshotRead a | .snapshotRelease a => argsFit a
  | .unknownCommand code a => Machine.isUnknownCode code && argsFit a
  | .transactionBegin => true

end Sys2Proof
end

