-- ==== Sys2Proof/Decode.lean ====
section
/-! DEFINITION. decodeTableWord over the rows of spec/opcode_table.json that give bits: there are none. -/

namespace Sys2Proof

/-- The command that a word spells by the table's bits. No row of spec/opcode_table.json gives bits, so no word spells a
command (log 18). -/
def decodeTableWord (_nbits _w : Nat) : Option Instr := none

end Sys2Proof
end

