-- ==== Sys2Proof/Config.lean ====
section
/-! DEFINITION. What the spec leaves open, as constants without a body: no proof can see their values. -/

namespace Sys2Proof

/-- Free choice (log 6): at one frame end, where R179 orders the notices of different blocks in no way, whether the next
notice comes from the first of two groups. Applied to the counter `State.free`. -/
opaque Config.noticeFromFirst : Nat → Bool

/-- Free choice (log 5): which of the events that are due at one instant is taken next. Applied to the counter
`State.free`. -/
opaque Config.dueOrder : Nat → Nat

end Sys2Proof
end

