-- ==== Sys2Proof/Machine/State.lean ====
section
/-! DEFINITION. The state of the station as plain data, block by block as spec/00_scope.md lists the blocks, and its
value right after reset. -/

namespace Sys2Proof.Machine

/-! ## Frames (chapter 1, 12.1) -/

/-- The fields of a frame's kind (R9, R10). -/
inductive FrameBody
  | update (first : Bool) (again : Bool) (topic : Topic) (seq : SeqNo) (payload : List Byte)
  | recallFor (topic : Topic)
  | epoch (number : SeqNo)
  | presence (caution defence noEpoch : Bool) (tag : UnitTag) (lastEpoch : SeqNo)
  | claim (tag : UnitTag)
  deriving DecidableEq, Repr

/-- A frame: the class of its first byte, the source of its second, and the fields of its kind (R8). -/
structure Frame where
  cls : FrameClass
  source : Station
  body : FrameBody
  deriving DecidableEq, Repr

/-- The verdict of the Line Interface on a received frame (R12); only a CLEAN frame hands on its fields. -/
inductive FrameOutcome
  | broken
  | malformed
  | checkFailed
  | clean (frame : Frame)
  deriving DecidableEq, Repr

/-- What the header-complete event carries (R13), with the own marker of R16. -/
structure Header where
  own : Bool
  cls : FrameClass
  source : Station
  first : Bool
  again : Bool
  topic : Topic
  seq : SeqNo
  length : Nat
  deriving DecidableEq, Repr

/-! ## Line Interface (chapter 1) -/

/-- The four line rates of R1. -/
inductive LineRate
  | kbit250
  | kbit500
  | mbit1
  | mbit2
  deriving DecidableEq, Repr

/-- Where the receiver stands inside a frame (R2 to R6). -/
inductive RxPhase
  /-- between characters, `n` idle bit times since the last stop bit or since the start mark's two idle bit times -/
  | between (n : Nat)
  /-- in a character, with the data bits received so far, least significant first -/
  | character (bits : List Bool)
  /-- after a missing stop bit, `n` idle bit times seen in a row -/
  | lost (n : Nat)
  /-- the frame ended by idle (R4) -/
  | endedIdle
  /-- the frame ended by a jam (R6) -/
  | endedJam
  deriving DecidableEq, Repr

/-- The character decoder and frame assembler on one frame (R2 to R6), with the active and the idle bit times seen in a
row up to now. -/
structure Receiver where
  chars : List Byte
  missingStop : Bool
  phase : RxPhase
  activeRun : Nat
  idleRun : Nat
  deriving DecidableEq, Repr

/-- A frame in reception: its own marker (R16), whether it has had a header-complete event (R13), the bit times taken of
it since its start mark up to its last event, and the receiver. -/
structure Reception where
  own : Bool
  headerSeen : Bool
  heard : Nat
  rx : Receiver
  deriving DecidableEq, Repr

/-- The receive condition (R18). -/
inductive ReceiveCondition
  | inactive
  | seeking
  | betweenFrames
  | inFrame (frame : Reception)
  deriving DecidableEq, Repr

/-- The send condition (R18), with the half microseconds left of the signal being driven. -/
inductive SendCondition
  | off
  | sending (left : Nat)
  | jamming (left : Nat)
  deriving DecidableEq, Repr

/-- The blocked-line measure while it runs (R7): half microseconds counted, and whether it has been reported. -/
structure BlockedMeasure where
  elapsed : Nat
  reported : Bool
  deriving DecidableEq, Repr

/-- The Line Interface. `level` is the line level outside a frame as the line events last reported it (R1); the station's
own signal is `send`. `gap` is the idle time counted towards the gap of R5, in half microseconds; none is counted while
the line is active, and after the gap has ended. `markCut` says that the active run under way is the own start mark, in
which a mismatch was found: it opens no frame (R16). `markHeard` counts the bit times of the attempt under way that
activities outside a frame have reported to their end: the next activity is compared from there on (R16). -/
structure LineInterface where
  clock : Stamp
  rate : Option LineRate
  receive : ReceiveCondition
  send : SendCondition
  blocked : Option BlockedMeasure
  level : LineLevel
  gap : Option Nat
  markCut : Bool
  markHeard : Nat
  deriving DecidableEq, Repr

/-! ## Transmit list and Access Controller (chapter 2, 7.7) -/

/-- What an item of the transmit list stands for, with its subject (R133). -/
inductive ItemKind
  | claim
  | presence (defence : Bool)
  | epoch
  | recallItem (topic : Topic)
  | update (index : PubIndex)
  deriving DecidableEq, Repr

/-- An item of the transmit list (R133). `placed` is the ordinal of its placement, which stands for its placement
instant (log 22). -/
structure Item where
  kind : ItemKind
  cls : FrameClass
  attempts : Nat
  placed : Nat
  deriving DecidableEq, Repr

/-- The item in flight (R28): its kind and subject, whether an UPDATE was latched as a REPEAT (R127), and the covered
bytes latched. -/
structure Flight where
  kind : ItemKind
  latchedRepeat : Bool
  covered : List Byte
  deriving DecidableEq, Repr

/-- The standing (R36). -/
inductive Standing
  | normal
  | caution
  | quiet
  deriving DecidableEq, Repr

/-- The Access Controller. `slotTime` is the half microseconds since the slot cycle began, none while slots are not
counted (R19). -/
structure AccessController where
  bases : Vector Station 8
  slotTime : Option Nat
  booking : Option (Fin 256)
  inFlight : Option Flight
  score : Nat
  standing : Standing
  deriving DecidableEq, Repr

/-! ## Session Controller and Roster (chapter 3) -/

/-- A timer or deadline: none while stopped, else the microseconds left. -/
abbrev Timer := Option Nat

/-- The configuration record (R41). -/
structure Record where
  station : Station
  rate : LineRate
  unitTag : UnitTag
  presenceInterval : Nat
  silenceMultiple : Nat
  listenMultiple : Nat
  recallWait : Nat
  recallHoldOff : Nat
  quotas : Vector Nat 8
  watermarks : Vector Nat 8
  deriving DecidableEq, Repr

/-- The station state (3.2). -/
inductive StationState
  | offline
  | listening
  | claiming
  | member
  | leaving
  | refused
  deriving DecidableEq, Repr

/-- The Session Controller. -/
structure SessionController where
  record : Option Record
  frozen : Bool
  state : StationState
  listenWindow : Timer
  presenceTimer : Timer
  deriving DecidableEq, Repr

/-- The state of a roster entry (R56); `selfEntry` is SELF. -/
inductive RosterState
  | absent
  | present
  | silent
  | selfEntry
  deriving DecidableEq, Repr

/-- A roster entry (R56). -/
structure RosterEntry where
  state : RosterState
  tag : Option UnitTag
  caution : Bool
  lastEpoch : Option SeqNo
  lastHeard : Stamp
  deadline : Timer
  deriving DecidableEq, Repr

/-! ## Acceptance Unit (chapter 4) -/

/-- The state of a subscription entry (R62). -/
inductive SubState
  | free
  | active
  | withdrawing
  deriving DecidableEq, Repr

/-- A delivery target (R62). -/
inductive Target
  | queue (q : QueueNo)
  | slot (k : SlotNo)
  deriving DecidableEq, Repr

/-- A subscription entry (R62). `source` none is ANY; `keepOn` is CONTINUE and `recallOption` is RECALL; `limit` is in milliseconds. -/
structure SubEntry where
  state : SubState
  value : Topic
  mask : Topic
  source : Option Station
  target : Target
  keepOn : Bool
  spill : Bool
  acceptSelf : Bool
  track : Bool
  recallOption : Bool
  limit : Nat
  engaged : Bool
  deriving DecidableEq, Repr

/-- Why a queue had no room (R71). -/
inductive OverflowReason
  | quota
  | pool
  deriving DecidableEq, Repr

/-- A reserved target of the reservation list (R68), with the entry that reserved it and those that share it. -/
structure Reserved where
  target : Target
  reserver : SubIndex
  sharers : List SubIndex
  deriving DecidableEq, Repr

/-- The reservation list (R68). -/
structure Plan where
  targets : List Reserved
  spilled : List (QueueNo × OverflowReason)
  overflow : Option (QueueNo × OverflowReason)
  deriving DecidableEq, Repr

/-- The Acceptance Unit. -/
structure AcceptanceUnit where
  table : Vector SubEntry 32
  plan : Plan
  deriving DecidableEq, Repr

/-! ## Message Store (chapters 5 and 6) -/

/-- A queue record (R88). -/
structure QueueRecord where
  topic : Topic
  source : Station
  seq : SeqNo
  first : Bool
  again : Bool
  selfMade : Bool
  gap : Bool
  missing : Nat
  entry : SubIndex
  stamp : Stamp
  payload : List Byte
  deriving DecidableEq, Repr

/-- A receive queue (R87), oldest record first. -/
structure ReceiveQueue where
  records : List QueueRecord
  reserved : Bool
  overflow : Bool
  dropped : Nat
  lastReason : Option OverflowReason
  deriving DecidableEq, Repr

/-- The state of a slot (R103). -/
inductive SlotState
  | empty
  | fresh
  | stale
  deriving DecidableEq, Repr

/-- Why a slot is STALE (R103). -/
inductive StaleReason
  | freshness
  | peerSilent
  | left
  deriving DecidableEq, Repr

/-- The contents of a slot, its fields from topic to arrival stamp (R103). -/
structure Contents where
  topic : Topic
  source : Station
  seq : SeqNo
  first : Bool
  again : Bool
  selfMade : Bool
  gap : Bool
  missing : Nat
  payload : List Byte
  stamp : Stamp
  deriving DecidableEq, Repr

/-- A latest-value slot (R103). `limit` is in milliseconds. -/
structure Slot where
  state : SlotState
  contents : Contents
  changed : Bool
  limit : Nat
  deadline : Timer
  reason : Option StaleReason
  deriving DecidableEq, Repr

/-- The Message Store: the free cells of the pool (R86), the queues and the slots. -/
structure MessageStore where
  free : Nat
  queues : Vector ReceiveQueue 8
  slots : Vector Slot 64
  deriving DecidableEq, Repr

/-! ## Publication Unit (chapter 7) -/

/-- The state of a publication entry (R117). -/
inductive PubState
  | free
  | active
  | withdrawing
  | yielded
  deriving DecidableEq, Repr

/-- The mode of a publication (R117). -/
inductive PubMode
  | periodic
  | onWrite
  | both
  deriving DecidableEq, Repr

/-- The kind of an UPDATE item (R117): NEW or REPEAT. -/
inductive UpdateKind
  | newValue
  | repeatValue
  deriving DecidableEq, Repr

/-- A publication entry (R117). `item` is the pending item, `cls` and `period` are 0 in a FREE entry. -/
structure PubEntry where
  state : PubState
  topic : Topic
  cls : FrameClass
  mode : PubMode
  period : Nat
  hasValue : Bool
  payload : List Byte
  dirty : Bool
  nextSeq : SeqNo
  firstArmed : Bool
  item : Option UpdateKind
  inFlight : Bool
  writtenSinceLatch : Bool
  rePend : Bool
  periodicTimer : Timer
  holdOff : Timer
  yieldedTo : Option Station
  conflict : Option Station
  deriving DecidableEq, Repr

/-- The Publication Unit: the table and the transmit list it owns, with the ordinal of the next placement. -/
structure PublicationUnit where
  table : Vector PubEntry 32
  items : List Item
  placements : Nat
  deriving DecidableEq, Repr

/-! ## Continuity Unit (chapter 8) -/

/-- A tracker entry (R140). -/
structure TrackEntry where
  source : Station
  topic : Topic
  last : SeqNo
  heard : Stamp
  deriving DecidableEq, Repr

/-- A classification (R142). -/
inductive Classification
  | fresh
  | rebase
  | inOrder
  | gap (missing : Nat)
  | duplicate
  | behind
  deriving DecidableEq, Repr

/-- The state of a recall list entry (R145). -/
inductive RecallState
  | free
  | waiting
  | sent
  | suppressed
  deriving DecidableEq, Repr

/-- Who asked for a recall (R145). -/
inductive RecallOrigin
  | host
  | fill
  | stale
  deriving DecidableEq, Repr

/-- A recall list entry (R145). -/
structure RecallEntry where
  state : RecallState
  topic : Topic
  origin : RecallOrigin
  expiries : Nat
  deadline : Timer
  deriving DecidableEq, Repr

/-- The Continuity Unit: the tracker in least-recently-heard order, and the recall list. -/
structure ContinuityUnit where
  tracker : List TrackEntry
  recalls : Vector RecallEntry 8
  deriving DecidableEq, Repr

/-! ## Epoch Unit (chapter 9) -/

/-- The state of the epoch request (R155). -/
inductive EpochRequest
  | none
  | waiting
  | inFlight
  deriving DecidableEq, Repr

/-- The state of a snapshot bank (R156). -/
inductive BankState
  | empty
  | filled
  | held
  deriving DecidableEq, Repr

/-- A slot copy (R156). -/
structure SlotCopy where
  state : SlotState
  reason : Option StaleReason
  contents : Contents
  deriving DecidableEq, Repr

/-- A snapshot bank (R156). -/
structure Bank where
  state : BankState
  number : SeqNo
  source : Station
  stamp : Stamp
  copies : Vector SlotCopy 64
  deriving DecidableEq, Repr

/-- The Epoch Unit (R155). -/
structure EpochUnit where
  lastSeen : Option SeqNo
  request : EpochRequest
  latched : Option SeqNo
  banks : Vector Bank 2
  latest : Option (Fin 2)
  deriving DecidableEq, Repr

/-! ## Host Port (chapter 10) -/

/-- The kind of a frame as notices name it (12.3). -/
inductive FrameKind
  | update
  | recallFrame
  | epoch
  | presence
  | claim
  deriving DecidableEq, Repr

/-- Why the station was refused (R51). -/
inductive RefusalReason
  | stationTaken
  | claimFailed
  | duplicateLost
  deriving DecidableEq, Repr

/-- How a recall ended (8.3, 8.4). -/
inductive RecallOutcome
  | answered
  | unanswered
  | abandoned
  | cancelled
  deriving DecidableEq, Repr

/-- How an epoch request ended (R157). -/
inductive EpochOutcome
  | sent (number : SeqNo) (source : Station)
  | merged (number : SeqNo) (source : Station)
  | abandoned
  | cancelled
  deriving DecidableEq, Repr

/-- The nineteen notice kinds with their subjects (10.6.1). -/
inductive Notice
  | joined
  | sessionRefused (reason : RefusalReason)
  | left
  | duplicateSuspected (kind : FrameKind)
  | standingChanged (standing : Standing)
  | lineBlocked
  | transmitAbandoned (kind : FrameKind) (subject : Nat)
  | peerJoined (s : Station)
  | peerReturned (s : Station)
  | peerSilent (s : Station)
  | peerReplaced (s : Station)
  | queueOverflow (q : QueueNo) (reason : OverflowReason)
  | slotStale (k : SlotNo) (reason : StaleReason)
  | recallDone (topic : Topic) (outcome : RecallOutcome)
  | publicationYielded (index : PubIndex) (s : Station)
  | conflictObserved (index : PubIndex) (s : Station)
  | epochDone (outcome : EpochOutcome)
  | epochGap (expected received : SeqNo)
  | snapshotOverrun (number : SeqNo)
  deriving DecidableEq, Repr

/-- A notice record (R179). -/
structure NoticeRecord where
  notice : Notice
  stamp : Stamp
  deriving DecidableEq, Repr

/-- The response status codes (R177). -/
inductive StatusCode
  | ok
  | pending
  | empty
  | notFound
  | notConfigured
  | wrongState
  | badArgument
  | inUse
  | duplicateTopic
  | yielded
  | ownTopic
  | listFull
  | notOpen
  | alreadyOpen
  | unknownCommand
  deriving DecidableEq, Repr

/-- A response (R175, R177). -/
structure Response where
  code : StatusCode
  data : List Byte
  deriving DecidableEq, Repr

/-- The port state (R171), with the command taken in EXECUTING and the buffer in RESPONSE_WAITING. -/
inductive PortState
  | ready
  | executing (code : Byte) (args : List Byte)
  | responseWaiting (response : Response)
  deriving DecidableEq, Repr

/-- What SEL's fall captured (R170, R176): the status byte, the two transaction flags it carries, and the response a fetch
will shift out. -/
structure Captured where
  status : Byte
  showsNotTaken : Bool
  showsMalformed : Bool
  answer : Option Response
  deriving DecidableEq, Repr

/-- The SEL pin: high, low in a transaction, or low in a transaction that R186 has the port ignore. -/
inductive SelectPin
  | high
  | low (captured : Captured)
  | ignored
  deriving DecidableEq, Repr

/-- The Host Port. `notTakenSince` and `malformedSince` say whether the flag was set since the SEL rise of the command
now in the port (R187). `sdo` holds the bytes shifted out in the last transaction. -/
structure HostPort where
  state : PortState
  lastNotTaken : Bool
  lastMalformed : Bool
  notTakenSince : Bool
  malformedSince : Bool
  notices : List NoticeRecord
  lost : Bool
  mask : BitVec 10
  sel : SelectPin
  sdo : List Byte
  deriving DecidableEq, Repr

end Sys2Proof.Machine

namespace Sys2Proof.Machine

/-- What holds the part in reset (R192): the internal hold of power-on, the RESET pin being low, and the microseconds left
of the 50 that are counted from the rise of RESET and from the end of the power-on hold. -/
structure ResetHold where
  power : Bool
  pinLow : Bool
  left : Timer
  deriving DecidableEq, Repr

/-- The state of the station. `pending` is the queue of commands, and `free` counts the free choices used up (log 5,
log 6). -/
structure State where
  pending : List Instr
  free : Nat
  hold : ResetHold
  line : LineInterface
  access : AccessController
  session : SessionController
  roster : Vector RosterEntry 32
  accept : AcceptanceUnit
  store : MessageStore
  pubs : PublicationUnit
  cont : ContinuityUnit
  epoch : EpochUnit
  port : HostPort
  deriving DecidableEq, Repr

/-- Why a step stops with a fault: the spec names no event or command that stops the part, so there is no such reason. -/
inductive Fault
  deriving DecidableEq, Repr

/-- Why a step is refused. -/
inductive Refusal
  /-- Raised by an arm of `exec` whose row has no meaning yet (safe); no arm raises it. -/
  | notModelled (mnemonic : String)
  deriving DecidableEq, Repr

/-! ## Reset values, block by block -/

/-- R18: the values of power-on and of the RESET pin. -/
def LineInterface.initial : LineInterface :=
  { clock := 0, rate := none, receive := .inactive, send := .off, blocked := none, level := .idle,
    gap := none, markCut := false, markHeard := 0 }

/-- R40. -/
def AccessController.initial : AccessController :=
  { bases := Vector.replicate 8 31, slotTime := none, booking := none, inFlight := none, score := 0, standing := .normal }

/-- R61. -/
def SessionController.initial : SessionController :=
  { record := none, frozen := false, state := .offline, listenWindow := none, presenceTimer := none }

/-- An ABSENT entry (R56). -/
def RosterEntry.absentEntry : RosterEntry :=
  { state := .absent, tag := none, caution := false, lastEpoch := none, lastHeard := 0, deadline := none }

/-- A FREE subscription entry (R62). -/
def SubEntry.initial : SubEntry :=
  { state := .free, value := 0, mask := 0, source := none, target := .queue 0, keepOn := false, spill := false,
    acceptSelf := false, track := false, recallOption := false, limit := 0, engaged := false }

/-- The empty reservation list. -/
def Plan.empty : Plan := { targets := [], spilled := [], overflow := none }

/-- R85. -/
def AcceptanceUnit.initial : AcceptanceUnit := { table := Vector.replicate 32 SubEntry.initial, plan := Plan.empty }

/-- R102. -/
def ReceiveQueue.initial : ReceiveQueue :=
  { records := [], reserved := false, overflow := false, dropped := 0, lastReason := none }

/-- The initial contents of R103. -/
def Contents.initial : Contents :=
  { topic := 0, source := 0, seq := 0, first := false, again := false, selfMade := false, gap := false, missing := 0,
    payload := [], stamp := 0 }

/-- An EMPTY slot (R103), with freshness limit 0 (R116). -/
def Slot.initial : Slot :=
  { state := .empty, contents := Contents.initial, changed := false, limit := 0, deadline := none, reason := none }

/-- R102, R116. -/
def MessageStore.initial : MessageStore :=
  { free := 128, queues := Vector.replicate 8 ReceiveQueue.initial, slots := Vector.replicate 64 Slot.initial }

/-- A FREE publication entry (R117). -/
def PubEntry.initial : PubEntry :=
  { state := .free, topic := 0, cls := 0, mode := .onWrite, period := 0, hasValue := false, payload := [], dirty := false,
    nextSeq := 0, firstArmed := false, item := none, inFlight := false, writtenSinceLatch := false, rePend := false,
    periodicTimer := none, holdOff := none, yieldedTo := none, conflict := none }

/-- R139. -/
def PublicationUnit.initial : PublicationUnit :=
  { table := Vector.replicate 32 PubEntry.initial, items := [], placements := 0 }

/-- A FREE recall list entry (R145). -/
def RecallEntry.initial : RecallEntry := { state := .free, topic := 0, origin := .host, expiries := 0, deadline := none }

/-- R154. -/
def ContinuityUnit.initial : ContinuityUnit := { tracker := [], recalls := Vector.replicate 8 RecallEntry.initial }

/-- A copy of an EMPTY slot (R156). -/
def SlotCopy.initial : SlotCopy := { state := .empty, reason := none, contents := Contents.initial }

/-- An EMPTY bank (R156). -/
def Bank.initial : Bank :=
  { state := .empty, number := 0, source := 0, stamp := 0, copies := Vector.replicate 64 SlotCopy.initial }

/-- R168. -/
def EpochUnit.initial : EpochUnit :=
  { lastSeen := none, request := .none, latched := none, banks := Vector.replicate 2 Bank.initial, latest := none }

/-- R186. -/
def HostPort.initial : HostPort :=
  { state := .ready, lastNotTaken := false, lastMalformed := false, notTakenSince := false, malformedSince := false,
    notices := [], lost := false, mask := 0, sel := .high, sdo := [] }

/-- No reset under way. -/
def ResetHold.over : ResetHold := { power := false, pinLow := false, left := none }

/-- The station right after a power-on or RESET pin reset has ended (R186). -/
def State.reset : State :=
  { pending := [], free := 0, hold := ResetHold.over, line := LineInterface.initial, access := AccessController.initial,
    session := SessionController.initial, roster := Vector.replicate 32 RosterEntry.absentEntry,
    accept := AcceptanceUnit.initial, store := MessageStore.initial, pubs := PublicationUnit.initial,
    cont := ContinuityUnit.initial, epoch := EpochUnit.initial, port := HostPort.initial }

end Sys2Proof.Machine
end

