-- ==== Sys2Proof/Machine/Ops.lean ====
section
/-! DEFINITION. Named operations that several blocks share: tables, the updates of the blocks of State, notices, the
transmit list, contention slots and bookings, the fault score, and the taking of a command by its owner. -/

namespace Sys2Proof.Machine

/-! ## Tables -/

/-- Entry `i` of a table changed by `f`. -/
def upd {α : Type} {n : Nat} (v : Vector α n) (i : Fin n) (f : α → α) : Vector α n := v.set i.val (f v[i]) i.isLt

/-- Every entry of a table changed by `f`. -/
def tabMap {α β : Type} {n : Nat} (f : α → β) (v : Vector α n) : Vector β n := Vector.ofFn fun i => f v[i]

/-- The lowest index of a table whose entry has property `p`. -/
def tabFind {α : Type} {n : Nat} (p : α → Bool) (v : Vector α n) : Option (Fin n) :=
  (List.finRange n).find? fun i => p v[i]

/-- Whether an entry of a table has property `p`. -/
def tabAny {α : Type} {n : Nat} (p : α → Bool) (v : Vector α n) : Bool := (List.finRange n).any fun i => p v[i]

/-! ## The updates of State, one a block -/

def State.setLine (s : State) (x : LineInterface) : State := { s with line := x }
def State.setAccess (s : State) (x : AccessController) : State := { s with access := x }
def State.setSession (s : State) (x : SessionController) : State := { s with session := x }
def State.setRoster (s : State) (x : Vector RosterEntry 32) : State := { s with roster := x }
def State.setAccept (s : State) (x : AcceptanceUnit) : State := { s with accept := x }
def State.setStore (s : State) (x : MessageStore) : State := { s with store := x }
def State.setPubs (s : State) (x : PublicationUnit) : State := { s with pubs := x }
def State.setCont (s : State) (x : ContinuityUnit) : State := { s with cont := x }
def State.setEpoch (s : State) (x : EpochUnit) : State := { s with epoch := x }
def State.setPort (s : State) (x : HostPort) : State := { s with port := x }

/-- Entry `i` of the publication table changed by `f`. -/
def State.updPub (s : State) (i : PubIndex) (f : PubEntry → PubEntry) : State :=
  s.setPubs { s.pubs with table := upd s.pubs.table i f }

/-- Slot `k` changed by `f`. -/
def State.updSlot (s : State) (k : SlotNo) (f : Slot → Slot) : State :=
  s.setStore { s.store with slots := upd s.store.slots k f }

/-- Queue `q` changed by `f`. -/
def State.updQueue (s : State) (q : QueueNo) (f : ReceiveQueue → ReceiveQueue) : State :=
  s.setStore { s.store with queues := upd s.store.queues q f }

/-- Position `p` of the recall list changed by `f`. -/
def State.updRecall (s : State) (p : RecallPos) (f : RecallEntry → RecallEntry) : State :=
  s.setCont { s.cont with recalls := upd s.cont.recalls p f }

/-- Entry `i` of the subscription table changed by `f`. -/
def State.updSub (s : State) (i : SubIndex) (f : SubEntry → SubEntry) : State :=
  s.setAccept { s.accept with table := upd s.accept.table i f }

/-- Entry `n` of the roster changed by `f`. -/
def State.updRoster (s : State) (n : Station) (f : RosterEntry → RosterEntry) : State :=
  s.setRoster (upd s.roster n f)

/-- Whether the part is held in reset (R186, R192). -/
def State.held (s : State) : Bool := s.hold.power || s.hold.pinLow || s.hold.left.isSome

/-! ## Times and the record -/

/-- A running timer of `n` milliseconds. -/
def millis (n : Nat) : Timer := some (n * 1000)

/-- A limit in milliseconds as a deadline; a limit of 0 gives none (R104). -/
def limitDeadline (limit : Nat) : Timer := if limit = 0 then none else millis limit

/-- The station number of the record (R41); 0 while the record is absent, when nothing reads it (log 17). -/
def ownNumber (s : State) : Station :=
  match s.session.record with
  | some r => r.station
  | none => 0

/-- A field of the record, 0 while the record is absent (log 17). -/
def recordField (s : State) (f : Record → Nat) : Nat :=
  match s.session.record with
  | some r => f r
  | none => 0

/-- The quota of queue `q`: from the record as it stands, 0 when it is absent (R87). -/
def quotaOf (s : State) (q : QueueNo) : Nat :=
  match s.session.record with
  | some r => r.quotas[q]
  | none => 0

/-- The watermark of queue `q` from the record, 0 when the quota is 0 (R98). -/
def watermarkOf (s : State) (q : QueueNo) : Nat :=
  match s.session.record with
  | some r => if r.quotas[q] = 0 then 0 else r.watermarks[q]
  | none => 0

/-- One bit time in half microseconds (R1, Conventions of 00_scope.md). -/
def bitTime : LineRate → Nat
  | .kbit250 => 8
  | .kbit500 => 4
  | .mbit1 => 2
  | .mbit2 => 1

/-- The bit time of the rate in use; the Line Interface is inactive while there is none (R18). -/
def lineBit (s : State) : Nat :=
  match s.line.rate with
  | some r => bitTime r
  | none => 8

/-! ## Notices (10.6) -/

/-- A notice is appended with the clock at its posting, or lost when the queue holds 32 records (R179, R180). -/
def post (s : State) (n : Notice) : State :=
  if s.port.notices.length < 32 then
    s.setPort { s.port with notices := s.port.notices ++ [{ notice := n, stamp := s.line.clock }] }
  else
    s.setPort { s.port with lost := true }

/-- Notices posted in the order given. -/
def postAll (s : State) (ns : List Notice) : State := ns.foldl post s

/-- An action of a block with the notices it posts, in order. -/
abbrev Posting := State × List Notice

/-- The action's notices posted. -/
def Posting.done (p : Posting) : State := postAll p.1 p.2

/-- `f` after the action `p`, its notices behind those of `p`. -/
def Posting.andThen (p : Posting) (f : State → Posting) : Posting :=
  let q := f p.1
  (q.1, p.2 ++ q.2)

/-- Two groups of notices in one order that keeps the order inside each group, chosen freely (R179, log 6). -/
def mergeNotices : Nat → Nat → List Notice → List Notice → List Notice
  | 0, _, xs, ys => xs ++ ys
  | _ + 1, _, [], ys => ys
  | _ + 1, _, xs, [] => xs
  | k + 1, c, x :: xs, y :: ys =>
    if Config.noticeFromFirst c then x :: mergeNotices k (c + 1) xs (y :: ys)
    else y :: mergeNotices k (c + 1) (x :: xs) ys

/-- The notices of several blocks in one freely chosen order that keeps each block's own order (R179), with the count of
free choices used up. -/
def interleave : Nat → List (List Notice) → List Notice × Nat
  | c, [] => ([], c)
  | c, g :: gs =>
    let rest := interleave c gs
    let n := g.length + rest.1.length
    (mergeNotices n rest.2 g rest.1, rest.2 + n)

/-- The blocks act in turn; their notices are kept block by block. -/
def runBlocks : List (State → Posting) → State → State × List (List Notice)
  | [], s => (s, [])
  | f :: fs, s =>
    let p := f s
    let rest := runBlocks fs p.1
    (rest.1, p.2 :: rest.2)

/-- The blocks act on one frame end, and their notices enter the queue in a freely chosen order (R179). -/
def actTogether (fs : List (State → Posting)) (s : State) : State :=
  let p := runBlocks fs s
  let ns := interleave p.1.free p.2
  postAll { p.1 with free := ns.2 } ns.1

/-! ## The transmit list (7.7) -/

/-- A new item behind every item of its own class and of more urgent classes, ahead of less urgent ones (R133). -/
def insertItem (it : Item) : List Item → List Item
  | [] => [it]
  | x :: xs => if it.cls < x.cls then it :: x :: xs else x :: insertItem it xs

/-- An item is placed with attempt count `attempts` (R133). -/
def placeWith (s : State) (kind : ItemKind) (cls : FrameClass) (attempts : Nat) : State :=
  s.setPubs { s.pubs with
    items := insertItem { kind := kind, cls := cls, attempts := attempts, placed := s.pubs.placements } s.pubs.items,
    placements := s.pubs.placements + 1 }

/-- A new item is placed with attempt count 0. -/
def placeItem (s : State) (kind : ItemKind) (cls : FrameClass) : State := placeWith s kind cls 0

/-- The item of kind `kind` is removed from the list. -/
def removeItem (s : State) (kind : ItemKind) : State :=
  s.setPubs { s.pubs with items := s.pubs.items.filter fun it => it.kind != kind }

/-- Whether an item is a PRESENCE, normal or defence. -/
def Item.isPresence (it : Item) : Bool :=
  match it.kind with
  | .presence _ => true
  | .claim | .epoch | .recallItem _ | .update _ => false

/-! ## Contention slots and bookings (chapter 2) -/

/-- The position of station `x` in a class with rotation base `base` (R20). -/
def position (x base : Station) : Nat := (x.val + 63 - base.val) % 32

/-- The own slot of class `c` (R20). -/
def ownSlot (s : State) (c : FrameClass) : Fin 256 :=
  Fin.ofNat 256 (c.val * 32 + position (ownNumber s) s.access.bases[c])

/-- When slot `b` begins, in half microseconds after the cycle began: 8 bit times a slot (R19). -/
def slotStart (s : State) (b : Fin 256) : Nat := b.val * (8 * lineBit s)

/-- Permission to begin an attempt (R23). -/
def permission (s : State) : Bool :=
  (match s.session.state with
   | .member => true
   | .claiming => (s.pubs.items.head?).any fun it => it.kind == .claim
   | .offline | .listening | .leaving | .refused => false)
  && s.access.standing != .quiet

/-- The earliest own slot of the current cycle, of a class equal to or less urgent than `c`, whose start is still ahead
(R25). -/
def lateSlot (s : State) (elapsed : Nat) (c : FrameClass) : Option (Fin 256) :=
  ((List.finRange 8).find? fun d => decide (c ≤ d) && decide (elapsed < slotStart s (ownSlot s d))).map (ownSlot s)

/-- The own slot of the head's class, booked at a gap end or at the start of a cycle (R24). -/
def bookAtCycle (s : State) : State :=
  match s.access.booking, permission s, s.pubs.items.head? with
  | none, true, some it => s.setAccess { s.access with booking := some (ownSlot s it.cls) }
  | _, _, _ => s

/-- The booking brought up to date after an event that may have changed the list, the station state or the standing:
dropped when permission is lost (R27), made late when there is permission, a head, and none yet (R25). -/
def settleBooking (s : State) : State :=
  if permission s then
    match s.access.booking, s.access.inFlight, s.access.slotTime, s.pubs.items.head? with
    | none, none, some e, some it => s.setAccess { s.access with booking := lateSlot s e it.cls }
    | _, _, _, _ => s
  else s.setAccess { s.access with booking := none }

/-! ## Fault score and standing (2.5, 2.6) -/

/-- The standing after a change of the score (R36). -/
def nextStanding (before : Standing) (score : Nat) : Standing :=
  match before with
  | .normal | .caution => if 160 ≤ score then .quiet else if 96 ≤ score then .caution else .normal
  | .quiet => if 65 ≤ score then .quiet else .normal

/-- A new score is stored and the standing is re-evaluated; a change posts STANDING_CHANGED (R36). -/
def rescore (s : State) (score : Nat) : Posting :=
  let st := nextStanding s.access.standing score
  (s.setAccess { s.access with score := score, standing := st },
   if st = s.access.standing then [] else [.standingChanged st])

/-- The score raised by `n`, to no more than 255 (R34). -/
def raiseScore (s : State) (n : Nat) : Posting := rescore s (min 255 (s.access.score + n))

/-- The score lowered by `n`, to no less than 0 (R34). -/
def lowerScore (s : State) (n : Nat) : Posting := rescore s (s.access.score - n)

/-- All eight bases set to 31 (R22). -/
def resetBases (s : State) : State := s.setAccess { s.access with bases := Vector.replicate 8 31 }

/-! ## Results of a meaning -/

/-- What a meaning answers. -/
abbrev Result := Host.Outcome State Fault Refusal

/-- An event: `act` outside reset; in reset the part takes none (R186, R192). -/
def whenRunning (s : State) (act : State → State) : State := if s.held then s else act s

/-! ## Commands at the host port (R174) -/

/-- A response with no data. -/
def plain (code : StatusCode) : Response := { code := code, data := [] }

/-- A response OK with data. -/
def okData (data : List Byte) : Response := { code := .ok, data := data }

/-- A refused command: no change of state, and the code (R174). -/
def refuseWith (s : State) (code : StatusCode) : State × Response := (s, plain code)

/-- Whether the owner can take the command now: the port executes exactly this command (R174), or it is READY, when the
command's transaction is implied (log 2). In RESPONSE_WAITING and in reset no command is taken (R171, R186). -/
def canTake (s : State) (code : Byte) (args : List Byte) : Bool :=
  !s.held &&
  (match s.port.state with
   | .ready => true
   | .executing c a => c == code && a == args
   | .responseWaiting _ => false)

/-- The owner takes a command as one event: `body` checks and carries it out, and its response is placed (R174). -/
def takeCommand (s : State) (code : Byte) (args : List Byte) (body : State → State × Response) : State :=
  if canTake s code args then
    let p := body s
    p.1.setPort { p.1.port with state := .responseWaiting p.2 }
  else s

end Sys2Proof.Machine
end

