-- ==== Sys2Proof/Machine/Flags.lean ====
section
/-! DEFINITION. Flags bytes, the ten level conditions, ATTN and the port status byte (10.1, 10.7, 12.2 to 12.4). -/

namespace Sys2Proof.Machine

/-- A number with bit `i` set where the list's entry `i` is true. -/
def flagNat : List Bool → Nat
  | [] => 0
  | b :: bs => b.toNat + 2 * flagNat bs

/-- A flags byte, bit 0 first; bits the list does not name are 0 (R189). -/
def flagByte (bs : List Bool) : Byte := BitVec.ofNat 8 (flagNat bs)

/-- QUEUE_AT_WATERMARK(q) (R92). -/
def atWatermark (s : State) (q : QueueNo) : Bool :=
  decide (0 < quotaOf s q) && decide (watermarkOf s q ≤ s.store.queues[q].records.length)

/-- SLOT_CHANGED (R111). -/
def slotChanged (s : State) : Bool := tabAny Slot.changed s.store.slots

/-- SNAPSHOT_READY (R164). -/
def snapshotReady (s : State) : Bool := tabAny (fun b => b.state == .filled) s.epoch.banks

/-- The ten raw level conditions in the layout of 12.3: bits 0 to 7 the watermarks, bit 8 SLOT_CHANGED, bit 9
SNAPSHOT_READY. -/
def rawConditions (s : State) : BitVec 10 :=
  BitVec.ofNat 10 (flagNat ((List.finRange 8).map (atWatermark s) ++ [slotChanged s, snapshotReady s]))

/-- ATTN (R184): asserted while the notice queue is non-empty or an enabled level condition holds; released in reset. -/
def attn (s : State) : Bool :=
  !s.held && (!s.port.notices.isEmpty || (rawConditions s &&& s.port.mask) != 0)

/-- LDE (R15, R192): the driver is enabled while a frame or a jam is being driven. -/
def lde (s : State) : Bool := s.line.send != .off

/-- The port status byte (R170, 12.4). -/
def statusByte (s : State) : Byte :=
  flagByte [s.port.state == .ready,
    (match s.port.state with | .executing _ _ => true | .ready | .responseWaiting _ => false),
    (match s.port.state with | .responseWaiting _ => true | .ready | .executing _ _ => false),
    attn s, s.port.lost, s.port.lastNotTaken, s.port.lastMalformed, true]

end Sys2Proof.Machine
end

