-- ==== Sys2Proof/Machine/Operands.lean ====
section
/-! DEFINITION. The operands of the commands: the line levels of the line events (R2 to R6) and the argument bytes of the
host's commands (12.5, 12.6). -/

namespace Sys2Proof.Machine

/-! ## Line levels -/

/-- What an active run outside a frame is (R3, R6). -/
inductive Activity
  | startMark
  | noise
  | jam
  deriving DecidableEq, Repr

/-- An active run of `run` bit times followed by `idle` idle ones: a jam from 11 on, a start mark at 5 to 7 with at least
2 idle bit times after it, noise otherwise (R3, R6); no run is no activity. -/
def classifyActivity (run idle : Nat) : Option Activity :=
  if run = 0 then none
  else if 11 ≤ run then some .jam
  else if 5 ≤ run ∧ run ≤ 7 ∧ 2 ≤ idle then some .startMark
  else some .noise

/-- The receiver when a start mark has been accepted, after its 2 idle bit times (R3). -/
def Receiver.start : Receiver := { chars := [], missingStop := false, phase := .between 0, activeRun := 0, idleRun := 2 }

/-- A byte from its data bits, least significant first (R2). -/
def byteOfBits (bits : List Bool) : Byte := BitVec.ofNat 8 (bits.foldr (fun b n => b.toNat + 2 * n) 0)

/-- The bits of a byte, least significant first. -/
def bitsOfByte (b : Byte) : List Bool := (List.range 8).map b.getLsbD

/-- The receiver with the runs of active and idle bit times counted on by one bit time. -/
def Receiver.count (r : Receiver) (l : LineLevel) : Receiver :=
  match l with
  | .active => { r with activeRun := r.activeRun + 1, idleRun := 0 }
  | .idle => { r with activeRun := 0, idleRun := r.idleRun + 1 }

/-- What one bit time does to the position inside the frame (R2, R3, R4): the third idle bit time between characters ends
the frame; an active bit time opens a character; the tenth bit time must be idle, or the character has a missing stop bit
and no further characters are taken. -/
def Receiver.advance (r : Receiver) (l : LineLevel) : Receiver :=
  match r.phase, l with
  | .between n, .idle => { r with phase := if n = 2 then .endedIdle else .between (n + 1) }
  | .between _, .active => { r with phase := .character [] }
  | .character bits, l =>
    if bits.length < 8 then { r with phase := .character (bits ++ [l == .idle]) }
    else if l = .idle then { r with chars := r.chars ++ [byteOfBits bits], phase := .between 0 }
    else { r with missingStop := true, phase := .lost 0 }
  | .lost n, .idle => { r with phase := if n = 2 then .endedIdle else .lost (n + 1) }
  | .lost _, .active => { r with phase := .lost 0 }
  | .endedIdle, _ | .endedJam, _ => r

/-- Whether the frame has ended (R4). -/
def Receiver.ended (r : Receiver) : Bool := r.phase == .endedIdle || r.phase == .endedJam

/-- One bit time of the line, seen by the receiver inside a frame: the eleventh active bit time in a row is a jam (R6). -/
def Receiver.bit (r : Receiver) (l : LineLevel) : Receiver :=
  if r.ended then r
  else
    let c := r.count l
    if 11 ≤ c.activeRun then { c with phase := .endedJam } else c.advance l

/-- The receiver after a run of bit times. -/
def Receiver.feed (r : Receiver) (levels : List LineLevel) : Receiver := levels.foldl Receiver.bit r

/-- The levels of a data bit, and of a whole character (R2): a 0 is active, the start bit active, the stop bit idle. -/
def characterLevels (b : Byte) : List LineLevel :=
  .active :: (bitsOfByte b).map (fun x => if x then .idle else .active) ++ [.idle]

/-- The characters of a frame back to back (R2, R15). -/
def charactersLevels (bs : List Byte) : List LineLevel := bs.flatMap characterLevels

/-- What the station drives for a frame (R15): 6 active and 2 idle bit times, then the characters. -/
def frameLevels (bs : List Byte) : List LineLevel :=
  List.replicate 6 .active ++ List.replicate 2 .idle ++ charactersLevels bs

/-! ## Argument bytes -/

/-- A 16-bit field, high byte first (R189). -/
def word16 (hi lo : Byte) : BitVec 16 := hi ++ lo

/-- A 32-bit field, high byte first (R189). -/
def word32 (a b c d : Byte) : BitVec 32 := a ++ b ++ c ++ d

/-- An argument byte as an index below `n`; none when it is out of range. -/
def indexOf (n : Nat) (b : Byte) : Option (Fin n) := if h : b.toNat < n then some ⟨b.toNat, h⟩ else none

/-- The line rate of a rate code (R1). -/
def rateOf (b : Byte) : Option LineRate :=
  match b.toNat with
  | 0 => some .kbit250
  | 1 => some .kbit500
  | 2 => some .mbit1
  | 3 => some .mbit2
  | _ => none

/-- The eight bytes of a per-queue field of the record, queue 0 first (12.6). -/
def eightNats (bs : List Byte) : Vector Nat 8 := Vector.ofFn fun i => (bs.getD i.val 0).toNat

/-- The ranges of R41 on the fields that every value of their bytes can break. -/
def Record.inRange (r : Record) : Bool :=
  r.unitTag != 0 && r.unitTag != 0xFFFFFFFF
  && decide (1 ≤ r.presenceInterval ∧ r.presenceInterval ≤ 255)
  && decide (2 ≤ r.silenceMultiple ∧ r.silenceMultiple ≤ 15)
  && decide (1 ≤ r.listenMultiple ∧ r.listenMultiple ≤ 15)
  && decide (1 ≤ r.recallWait ∧ r.recallWait ≤ 255)
  && decide (1 ≤ r.recallHoldOff ∧ r.recallHoldOff ≤ 255)
  && (List.finRange 8).all fun q =>
      decide (r.quotas[q] ≤ 128)
      && (decide (r.quotas[q] = 0) || decide (1 ≤ r.watermarks[q] ∧ r.watermarks[q] ≤ r.quotas[q]))

/-- The configuration record of 27 argument bytes (12.6), none when a field is out of its range (R41). -/
def recordOf (args : List Byte) : Option Record :=
  match args with
  | n :: rate :: t3 :: t2 :: t1 :: t0 :: presence :: silence :: listen :: wait :: hold :: queues =>
    match indexOf 32 n, rateOf rate with
    | some station, some rate =>
      let r : Record :=
        { station := station, rate := rate, unitTag := word32 t3 t2 t1 t0, presenceInterval := presence.toNat,
          silenceMultiple := silence.toNat, listenMultiple := listen.toNat, recallWait := wait.toNat,
          recallHoldOff := hold.toNat, quotas := eightNats (queues.take 8), watermarks := eightNats (queues.drop 8) }
      if r.inRange then some r else none
    | _, _ => none
  | _ => none

/-- The source constraint byte of SUBSCRIBE (12.5): a station number or 0xFF for ANY; none when out of range (R190). -/
def sourceConstraintOf (b : Byte) : Option (Option Station) :=
  if b = 0xFF then some none else (indexOf 32 b).map some

/-- The target of SUBSCRIBE (12.3, 12.5); none when its kind or number is out of range (R63, R190). -/
def targetOf (kind number : Byte) : Option Target :=
  match kind.toNat with
  | 0 => (indexOf 8 number).map .queue
  | 1 => (indexOf 64 number).map .slot
  | _ => none

/-- The mode byte of DECLARE (12.3); none when out of range (R190). -/
def modeOf (b : Byte) : Option PubMode :=
  match b.toNat with
  | 1 => some .periodic
  | 2 => some .onWrite
  | 3 => some .both
  | _ => none

end Sys2Proof.Machine
end

