-- ==== Sys2Proof/Machine/Formats.lean ====
section
/-! DEFINITION. Byte layouts: frames on the line with their check and their outcome (1.5 to 1.7, 12.1), and what the host
port sends (12.3 to 12.8). -/

namespace Sys2Proof.Machine

/-! ## Byte order -/

/-- A number as one byte. -/
def byteOf (n : Nat) : Byte := BitVec.ofNat 8 n

/-- A 16-bit field, high byte first (R189). -/
def bytes16 (n : Nat) : List Byte := [byteOf (n / 256), byteOf n]

/-- A 32-bit field, high byte first (R189). -/
def bytes32 (n : Nat) : List Byte := [byteOf (n / 16777216), byteOf (n / 65536), byteOf (n / 256), byteOf n]

/-! ## The check (R11) -/

/-- One shift of the remainder (R11, step 3). -/
def checkShift (r : BitVec 16) : BitVec 16 := if r.msb then (r <<< 1) ^^^ 0x1021 else r <<< 1

/-- One covered byte worked into the remainder (R11, steps 2 and 3). -/
def checkByte (r : BitVec 16) (b : Byte) : BitVec 16 :=
  let x := r ^^^ (b.setWidth 16 <<< 8)
  checkShift (checkShift (checkShift (checkShift (checkShift (checkShift (checkShift (checkShift x)))))))

/-- The check of the covered bytes (R11). -/
def checkOf (covered : List Byte) : BitVec 16 := covered.foldl checkByte 0xFFFF

/-- A whole frame: the covered bytes and the check, high byte first (R11). -/
def withCheck (covered : List Byte) : List Byte := covered ++ bytes16 (checkOf covered).toNat

/-! ## Frames (12.1) -/

/-- The kind code (R8). -/
def FrameBody.code : FrameBody → Nat
  | .update .. => 1
  | .recallFor _ => 2
  | .epoch _ => 3
  | .presence .. => 4
  | .claim _ => 5

/-- The kind of a frame as notices name it (12.3). -/
def FrameBody.kind : FrameBody → FrameKind
  | .update .. => .update
  | .recallFor _ => .recallFrame
  | .epoch _ => .epoch
  | .presence .. => .presence
  | .claim _ => .claim

/-- The flag positions of the source byte, bits 7 to 5 (12.1). -/
def FrameBody.flags : FrameBody → Nat
  | .update first again _ _ _ => 128 * first.toNat + 64 * again.toNat
  | .presence caution defence noEpoch _ _ => 128 * caution.toNat + 64 * defence.toNat + 32 * noEpoch.toNat
  | .recallFor _ | .epoch _ | .claim _ => 0

/-- The fields after the source byte (12.1). -/
def FrameBody.fields : FrameBody → List Byte
  | .update _ _ topic seq payload => bytes16 topic.toNat ++ [seq, byteOf payload.length] ++ payload
  | .recallFor topic => bytes16 topic.toNat
  | .epoch number => [number]
  | .presence _ _ _ tag last => bytes32 tag.toNat ++ [last]
  | .claim tag => bytes32 tag.toNat

/-- The covered bytes of a frame (R8, R15, 12.1). -/
def encodeFrame (f : Frame) : List Byte :=
  byteOf (16 * f.body.code + f.cls.val) :: byteOf (f.body.flags + f.source.val) :: f.body.fields

/-- The classes allowed for a kind code (R8); no class is allowed for any other code. -/
def classAllowed (code cls : Nat) : Bool :=
  match code with
  | 1 => decide (1 ≤ cls ∧ cls ≤ 6)
  | 2 => cls == 1
  | 3 => cls == 0
  | 4 => cls == 0 || cls == 7
  | 5 => cls == 7
  | _ => false

/-- A valid first byte: a kind of R8, the spare bit 0, and a class allowed for the kind. -/
def firstByteValid (b : Byte) : Bool := !b.getLsbD 3 && classAllowed (b.toNat / 16) (b.toNat % 8)

/-- The total number of characters a frame must have by its first byte and, for an UPDATE, its length byte (R8, R12);
none when the length byte has not arrived or is over 32. -/
def expectedLength (chars : List Byte) : Option Nat :=
  match (chars.getD 0 0).toNat / 16 with
  | 1 => if 6 ≤ chars.length ∧ (chars.getD 5 0).toNat ≤ 32 then some (8 + (chars.getD 5 0).toNat) else none
  | 2 => some 6
  | 3 => some 5
  | 4 => some 9
  | 5 => some 8
  | _ => none

/-- The fields of a frame of the right length with a valid first byte (12.1); flag positions that the kind does not use
are ignored (R8), and last epoch seen is ignored when NO_EPOCH is set (R10). -/
def parseFrame (chars : List Byte) : Frame :=
  let at' := fun i => chars.getD i 0
  let flags := at' 1
  { cls := Fin.ofNat 8 ((at' 0).toNat % 8),
    source := Fin.ofNat 32 (flags.toNat % 32),
    body :=
      match (at' 0).toNat / 16 with
      | 1 => .update (flags.getLsbD 7) (flags.getLsbD 6) (word16 (at' 2) (at' 3)) (at' 4)
          ((chars.drop 6).take (at' 5).toNat)
      | 2 => .recallFor (word16 (at' 2) (at' 3))
      | 3 => .epoch (at' 2)
      | 4 => .presence (flags.getLsbD 7) (flags.getLsbD 6) (flags.getLsbD 5) (word32 (at' 2) (at' 3) (at' 4) (at' 5))
          (at' 6)
      | _ => .claim (word32 (at' 2) (at' 3) (at' 4) (at' 5)) }

/-- The outcome of a frame that has ended (R12): the first test that applies. -/
def judge (r : Receiver) : FrameOutcome :=
  if r.phase = .endedJam then .broken
  else if r.missingStop || r.chars.isEmpty || !firstByteValid (r.chars.getD 0 0)
      || expectedLength r.chars != some r.chars.length then .malformed
  else
    let n := r.chars.length - 2
    if bytes16 (checkOf (r.chars.take n)).toNat = r.chars.drop n then .clean (parseFrame r.chars)
    else .checkFailed

/-- The conditions of the header-complete event when the sixth byte has just arrived (R13). -/
def headerArrived (r : Receiver) : Bool :=
  r.phase == .between 0 && r.chars.length == 6 && !r.missingStop
  && firstByteValid (r.chars.getD 0 0) && (r.chars.getD 0 0).toNat / 16 == 1
  && decide ((r.chars.getD 5 0).toNat ≤ 32)

/-- The fields of the header from its six bytes (R13, 12.1), with the own marker (R16). -/
def headerOf (own : Bool) (r : Receiver) : Header :=
  let at' := fun i => r.chars.getD i 0
  { own := own, cls := Fin.ofNat 8 ((at' 0).toNat % 8), source := Fin.ofNat 32 ((at' 1).toNat % 32),
    first := (at' 1).getLsbD 7, again := (at' 1).getLsbD 6, topic := word16 (at' 2) (at' 3), seq := at' 4,
    length := (at' 5).toNat }

/-! ## Enumerations of the host port (12.3, 12.4) -/

def StationState.code : StationState → Byte
  | .offline => 0
  | .listening => 1
  | .claiming => 2
  | .member => 3
  | .leaving => 4
  | .refused => 5

def Standing.code : Standing → Byte
  | .normal => 0
  | .caution => 1
  | .quiet => 2

def RosterState.code : RosterState → Byte
  | .absent => 0
  | .present => 1
  | .silent => 2
  | .selfEntry => 3

def SubState.code : SubState → Byte
  | .free => 0
  | .active => 1
  | .withdrawing => 2

def PubState.code : PubState → Byte
  | .free => 0
  | .active => 1
  | .withdrawing => 2
  | .yielded => 3

def PubMode.code : PubMode → Byte
  | .periodic => 1
  | .onWrite => 2
  | .both => 3

/-- Pending item: 0 none, 1 NEW, 2 REPEAT. -/
def pendingCode : Option UpdateKind → Byte
  | none => 0
  | some .newValue => 1
  | some .repeatValue => 2

def SlotState.code : SlotState → Byte
  | .empty => 0
  | .fresh => 1
  | .stale => 2

/-- Stale reason: 0 none. -/
def staleCode : Option StaleReason → Byte
  | none => 0
  | some .freshness => 1
  | some .peerSilent => 2
  | some .left => 3

/-- Overflow reason: 0 none. -/
def overflowCode : Option OverflowReason → Byte
  | none => 0
  | some .quota => 1
  | some .pool => 2

def FrameKind.code : FrameKind → Nat
  | .update => 1
  | .recallFrame => 2
  | .epoch => 3
  | .presence => 4
  | .claim => 5

def RefusalReason.code : RefusalReason → Nat
  | .stationTaken => 1
  | .claimFailed => 2
  | .duplicateLost => 3

def RecallOutcome.code : RecallOutcome → Nat
  | .answered => 1
  | .unanswered => 2
  | .abandoned => 3
  | .cancelled => 4

/-- The response status codes (12.4). -/
def StatusCode.code : StatusCode → Byte
  | .ok => 0x00
  | .pending => 0x01
  | .empty => 0x02
  | .notFound => 0x03
  | .notConfigured => 0x04
  | .wrongState => 0x05
  | .badArgument => 0x06
  | .inUse => 0x07
  | .duplicateTopic => 0x08
  | .yielded => 0x09
  | .ownTopic => 0x0A
  | .listFull => 0x0B
  | .notOpen => 0x0C
  | .alreadyOpen => 0x0D
  | .unknownCommand => 0x0E

/-! ## Notices (12.8) -/

/-- The kind code and the three subjects of a notice; a subject that the kind does not use is 0 (R189). -/
def Notice.fields : Notice → Byte × Nat × Nat × Nat
  | .joined => (0x01, 0, 0, 0)
  | .sessionRefused r => (0x02, r.code, 0, 0)
  | .left => (0x03, 0, 0, 0)
  | .duplicateSuspected k => (0x04, k.code, 0, 0)
  | .standingChanged st => (0x10, st.code.toNat, 0, 0)
  | .lineBlocked => (0x11, 0, 0, 0)
  | .transmitAbandoned k n => (0x12, k.code, n, 0)
  | .peerJoined x => (0x20, x.val, 0, 0)
  | .peerReturned x => (0x21, x.val, 0, 0)
  | .peerSilent x => (0x22, x.val, 0, 0)
  | .peerReplaced x => (0x23, x.val, 0, 0)
  | .queueOverflow q r => (0x30, q.val, (overflowCode (some r)).toNat, 0)
  | .slotStale k r => (0x31, k.val, (staleCode (some r)).toNat, 0)
  | .recallDone t o => (0x40, t.toNat, o.code, 0)
  | .publicationYielded i x => (0x50, i.val, x.val, 0)
  | .conflictObserved i x => (0x51, i.val, x.val, 0)
  | .epochDone (.sent e x) => (0x60, 1, e.toNat, x.val)
  | .epochDone (.merged e x) => (0x60, 2, e.toNat, x.val)
  | .epochDone .abandoned => (0x60, 3, 0, 0)
  | .epochDone .cancelled => (0x60, 4, 0, 0)
  | .epochGap e r => (0x61, e.toNat, r.toNat, 0)
  | .snapshotOverrun e => (0x62, e.toNat, 0, 0)

/-- The notice record, 11 bytes (12.8). -/
def NoticeRecord.bytes (r : NoticeRecord) : List Byte :=
  let f := r.notice.fields
  f.1 :: bytes16 f.2.1 ++ bytes16 f.2.2.1 ++ bytes16 f.2.2.2 ++ bytes32 r.stamp.toNat

/-! ## Records (12.8) -/

/-- The queue record. -/
def QueueRecord.bytes (r : QueueRecord) : List Byte :=
  bytes16 r.topic.toNat
  ++ [byteOf r.source.val, flagByte [r.first, r.again, r.selfMade, r.gap], byteOf r.missing, r.seq, byteOf r.entry.val]
  ++ bytes32 r.stamp.toNat ++ byteOf r.payload.length :: r.payload

/-- The slot record, with the changed flag in bit 4 of the record flags. -/
def Slot.bytes (k : Slot) : List Byte :=
  let c := k.contents
  [k.state.code, staleCode k.reason, flagByte [c.first, c.again, c.selfMade, c.gap, k.changed]]
  ++ bytes16 k.limit ++ bytes16 c.topic.toNat ++ [byteOf c.source.val, c.seq, byteOf c.missing]
  ++ bytes32 c.stamp.toNat ++ byteOf c.payload.length :: c.payload

/-- The slot copy. -/
def SlotCopy.bytes (k : SlotCopy) : List Byte :=
  let c := k.contents
  [k.state.code, staleCode k.reason, flagByte [c.first, c.again, c.selfMade, c.gap]]
  ++ bytes16 c.topic.toNat ++ [byteOf c.source.val, c.seq, byteOf c.missing]
  ++ bytes32 c.stamp.toNat ++ byteOf c.payload.length :: c.payload

/-! ## Response data (12.7) -/

/-- An optional station number, 0xFF for none (R189). -/
def stationByte : Option Station → Byte
  | none => 0xFF
  | some x => byteOf x.val

/-- The data of READ ROSTER. -/
def RosterEntry.bytes (e : RosterEntry) : List Byte :=
  [e.state.code, flagByte [e.tag.isSome, e.caution, e.lastEpoch.isSome]]
  ++ bytes32 (e.tag.getD 0).toNat ++ e.lastEpoch.getD 0 :: bytes32 e.lastHeard.toNat

/-- The target kind and number (12.3). -/
def Target.bytes : Target → List Byte
  | .queue q => [0, byteOf q.val]
  | .slot k => [1, byteOf k.val]

/-- The data of READ SUBSCRIPTION. -/
def SubEntry.bytes (e : SubEntry) : List Byte :=
  e.state.code :: bytes16 e.value.toNat ++ bytes16 e.mask.toNat ++ stationByte e.source :: e.target.bytes
  ++ flagByte [e.keepOn, e.spill, e.acceptSelf, e.track, e.recallOption] :: bytes16 e.limit ++ [byteOf e.engaged.toNat]

/-- The data of QUEUE STATUS. -/
def queueStatusBytes (s : State) (q : QueueNo) : List Byte :=
  let x := s.store.queues[q]
  [byteOf x.records.length, flagByte [x.reserved, x.overflow], byteOf (quotaOf s q), byteOf (watermarkOf s q),
   byteOf x.dropped, overflowCode x.lastReason]

/-- The data of READ PUBLICATION. -/
def PubEntry.bytes (e : PubEntry) : List Byte :=
  e.state.code :: bytes16 e.topic.toNat ++ byteOf e.cls.val :: e.mode.code :: bytes16 e.period
  ++ [flagByte [e.hasValue, e.dirty, e.firstArmed, e.inFlight, e.periodicTimer.isSome, e.holdOff.isSome],
      pendingCode e.item, e.nextSeq, stationByte e.yieldedTo, stationByte e.conflict, byteOf e.payload.length]
  ++ e.payload

/-- Last epoch seen in STATUS: 0x00 and the number, or 0xFFFF for none (R189). -/
def lastEpochBytes : Option SeqNo → List Byte
  | none => [0xFF, 0xFF]
  | some e => [0x00, e]

/-- The data of STATUS (R178). -/
def statusBytes (s : State) : List Byte :=
  [flagByte [s.session.record.isSome, s.session.frozen], s.session.state.code, s.access.standing.code,
   byteOf s.access.score]
  ++ lastEpochBytes s.epoch.lastSeen
  ++ [byteOf s.store.free, byteOf s.port.notices.length, flagByte [s.port.lost]]
  ++ bytes16 (rawConditions s).toNat ++ bytes16 s.port.mask.toNat

/-- What a fetch shifts out after the status byte: the response, or NO_RESPONSE (R175, R176). -/
def answerBytes : Option Response → List Byte
  | none => [0xFF, 0x00]
  | some r => r.code.code :: byteOf r.data.length :: r.data

end Sys2Proof.Machine
end

