-- ==== Sys2Proof/Machine/Continuity.lean ====
section
/-! DEFINITION. The Continuity Unit (chapter 8): the sequence tracker, the recall list, RECALL and RECALL_DEADLINE_EXPIRY. -/

namespace Sys2Proof.Machine

/-! ## The tracker (8.1) -/

/-- Whether a tracker entry has the key of `source` and `topic` (R140). -/
def TrackEntry.hasKey (e : TrackEntry) (source : Station) (topic : Topic) : Bool :=
  e.source == source && e.topic == topic

/-- The classification of a frame against the tracker as it stands before the frame (R142). -/
def classify (tracker : List TrackEntry) (source : Station) (topic : Topic) (seq : SeqNo) (first : Bool) :
    Classification :=
  match tracker.find? (fun e => e.hasKey source topic) with
  | none => .fresh
  | some e =>
    if first then .rebase
    else
      let d := (seq - e.last).toNat
      if d = 0 then .duplicate
      else if d = 1 then .inOrder
      else if d ≤ 127 then .gap (d - 1)
      else .behind

/-- The tracker after a frame of the classification given (R142): a new entry at the end of the order, in place of the
least recently heard one when there are 48; else the entry moved to the end with the frame's number and stamp (a
DUPLICATE's number is the entry's own); BEHIND changes nothing. -/
def trackFrame (tracker : List TrackEntry) (source : Station) (topic : Topic) (seq : SeqNo) (stamp : Stamp)
    (c : Classification) : List TrackEntry :=
  let e : TrackEntry := { source := source, topic := topic, last := seq, heard := stamp }
  match c with
  | .behind => tracker
  | .fresh => (if 48 ≤ tracker.length then tracker.drop 1 else tracker) ++ [e]
  | .rebase | .duplicate | .inOrder | .gap _ => (tracker.filter fun x => !x.hasKey source topic) ++ [e]

/-- The tracker without the entries of a replaced source (R143). -/
def dropSource (s : State) (source : Station) : State :=
  s.setCont { s.cont with tracker := s.cont.tracker.filter fun e => e.source != source }

/-! ## The recall list (8.2) -/

/-- The position of the recall list entry for a topic that is not FREE. -/
def recallAt (s : State) (topic : Topic) : Option RecallPos :=
  tabFind (fun e => e.state != .free && e.topic == topic) s.cont.recalls

/-- The lowest FREE position of the recall list (R145). -/
def freeRecall (s : State) : Option RecallPos := tabFind (fun e => e.state == .free) s.cont.recalls

/-- Whether a publication entry that is not FREE holds the topic (R146, R147). -/
def ownsTopic (s : State) (topic : Topic) : Bool :=
  tabAny (fun e => e.state != .free && e.topic == topic) s.pubs.table

/-- A new recall list entry in WAITING, with its RECALL item (R146, step 5). -/
def makeRecall (s : State) (p : RecallPos) (topic : Topic) (origin : RecallOrigin) : State :=
  placeItem
    (s.updRecall p fun _ => { state := .waiting, topic := topic, origin := origin, expiries := 0, deadline := none })
    (.recallItem topic) 1

/-- An automatic request makes an entry when every condition of R147 holds, and is declined otherwise. -/
def requestRecall (s : State) (topic : Topic) (origin : RecallOrigin) : State :=
  if s.session.state = .member ∧ s.access.standing = .normal ∧ ownsTopic s topic = false ∧ recallAt s topic = none then
    match freeRecall s with
    | some p => makeRecall s p topic origin
    | none => s
  else s

/-- The recall wait of the record (R148, R154). -/
def recallWait (s : State) : Timer := millis (recordField s Record.recallWait)

/-! ## Attempt ends and frame ends (8.3, 8.4) -/

/-- The own RECALL ended clean: SENT, with the deadline started (R148). -/
def recallSent (s : State) (topic : Topic) : State :=
  match recallAt s topic with
  | some p => s.updRecall p fun e => { e with state := .sent, deadline := recallWait s }
  | none => s

/-- The own RECALL was abandoned: FREE, with RECALL_DONE(T, ABANDONED) (R148). -/
def recallAbandoned (s : State) (topic : Topic) : Posting :=
  match recallAt s topic with
  | some p => (s.updRecall p fun _ => RecallEntry.initial, [.recallDone topic .abandoned])
  | none => (s, [])

/-- A peer's RECALL for the topic suppresses a WAITING entry (R149). -/
def suppressRecall (s : State) (topic : Topic) : State :=
  match recallAt s topic with
  | some p =>
    if s.cont.recalls[p].state = .waiting then
      removeItem (s.updRecall p fun e => { e with state := .suppressed, deadline := recallWait s }) (.recallItem topic)
    else s
  | none => s

/-- A CLEAN UPDATE for the topic answers the entry for it (R150). -/
def answerRecall (s : State) (topic : Topic) : Posting :=
  match recallAt s topic with
  | some p =>
    let e := s.cont.recalls[p]
    let s1 := if e.state = .waiting then removeItem s (.recallItem topic) else s
    (s1.updRecall p fun _ => RecallEntry.initial, if e.origin = .host then [.recallDone topic .answered] else [])
  | none => (s, [])

/-- The Continuity Unit at the end of a CLEAN frame (R149, R150). -/
def continuityAtFrame (own : Bool) (f : Frame) (s : State) : Posting :=
  match f.body with
  | .update _ _ topic _ _ => answerRecall s topic
  | .recallFor topic => if own then (s, []) else (suppressRecall s topic, [])
  | .epoch _ | .presence .. | .claim _ => (s, [])

/-- Every entry freed, in the order of the positions, with RECALL_DONE(T, CANCELLED) for each of origin HOST (R153). The
RECALL items go with the whole transmit list. -/
def cancelRecalls (s : State) : Posting :=
  (s.setCont { s.cont with recalls := Vector.replicate 8 RecallEntry.initial },
   (List.finRange 8).filterMap fun p =>
     let e := s.cont.recalls[p]
     if e.state ≠ .free ∧ e.origin = .host then some (.recallDone e.topic .cancelled) else none)

/-! ## Commands and events -/

/-- RECALL(T) (R146). -/
def recallBody (args : List Byte) (s : State) : State × Response :=
  match args with
  | [hi, lo] =>
    let topic := word16 hi lo
    if s.session.state ≠ .member then refuseWith s .wrongState
    else if ownsTopic s topic then refuseWith s .ownTopic
    else match recallAt s topic with
      | some p => (s.updRecall p fun e => { e with origin := .host }, plain .ok)
      | none =>
        match freeRecall s with
        | some p => (settleBooking (makeRecall s p topic .host), plain .ok)
        | none => refuseWith s .listFull
  | _ => refuseWith s .badArgument

/-- RECALL (R146, R174). -/
def execRecall (args : List Byte) (s : State) : Result := .next (takeCommand s 0x60 args (recallBody args))

/-- The wait of position `p` runs out (R151): the entry sends again after the first expiry, and is given up after the
second. -/
def recallExpiry (p : RecallPos) (s : State) : Posting :=
  let e := s.cont.recalls[p]
  if e.expiries = 0 then
    (placeItem (s.updRecall p fun e => { e with state := .waiting, expiries := 1, deadline := none })
      (.recallItem e.topic) 1, [])
  else (s.updRecall p fun _ => RecallEntry.initial, [.recallDone e.topic .unanswered])

/-- Whether the deadline of a recall list entry runs: in SENT and SUPPRESSED (R145). -/
def RecallEntry.waits (e : RecallEntry) : Bool := (e.state == .sent || e.state == .suppressed) && e.deadline.isSome

/-- RECALL_DEADLINE_EXPIRY (R151). -/
def execRecallDeadlineExpiry (p : RecallPos) (s : State) : Result :=
  .next (whenRunning s fun s =>
    if s.cont.recalls[p].waits then settleBooking (recallExpiry p s).done else s)

end Sys2Proof.Machine
end

