-- ==== Sys2Proof/Machine/Store.lean ====
section
/-! DEFINITION. The Message Store (chapters 5 and 6): the cell pool, the queues and the slots, their commands, and
FRESHNESS_DEADLINE_EXPIRY. -/

namespace Sys2Proof.Machine

/-! ## Queues and the pool -/

/-- One free cell moves into the reservation of queue `q` (R89). -/
def reserveCell (s : State) (q : QueueNo) : State :=
  let s1 := s.updQueue q fun x => { x with reserved := true }
  s1.setStore { s1.store with free := s1.store.free - 1 }

/-- The reserved cell of queue `q` becomes a record at its tail (R90). -/
def deliverQueue (s : State) (q : QueueNo) (r : QueueRecord) : State :=
  s.updQueue q fun x => { x with records := x.records ++ [r], reserved := false }

/-- The reserved cell of queue `q` returns to the pool (R91). -/
def releaseCell (s : State) (q : QueueNo) : State :=
  let s1 := s.updQueue q fun x => { x with reserved := false }
  s1.setStore { s1.store with free := s1.store.free + 1 }

/-- An overflow of queue `q` is recorded (R93). -/
def recordOverflow (s : State) (q : QueueNo) (reason : OverflowReason) : Posting :=
  (s.updQueue q fun x =>
      { x with dropped := min 255 (x.dropped + 1), lastReason := some reason, overflow := true },
   if s.store.queues[q].overflow then [] else [.queueOverflow q reason])

/-- Every queue emptied, with its overflow state, and every cell free (R100, R102). -/
def emptyQueues (s : State) : State :=
  s.setStore { s.store with free := 128, queues := Vector.replicate 8 ReceiveQueue.initial }

/-! ## Slots -/

/-- A delivery to a slot (R106). -/
def Slot.deliver (k : Slot) (c : Contents) : Slot :=
  { k with state := .fresh, contents := c, changed := true, deadline := limitDeadline k.limit, reason := none }

/-- A refresh of a slot (R107); an EMPTY slot stays EMPTY. -/
def Slot.refresh (k : Slot) : Slot :=
  match k.state with
  | .empty => k
  | .fresh | .stale => { k with state := .fresh, deadline := limitDeadline k.limit, reason := none }

/-- A new freshness limit (R105). -/
def Slot.setLimit (k : Slot) (limit : Nat) : Slot :=
  match k.state with
  | .fresh => { k with limit := limit, deadline := limitDeadline limit }
  | .empty | .stale => { k with limit := limit }

/-- A slot goes STALE (R108, R109, R114). -/
def Slot.goStale (k : Slot) (reason : StaleReason) : Slot :=
  { k with state := .stale, deadline := none, reason := some reason }

/-- The automatic recall requests when slot `k` has gone stale, in ascending entry index (R110). -/
def staleRequests (s : State) (k : SlotNo) : State :=
  (List.finRange 32).foldl (fun s i =>
    let e := s.accept.table[i]
    if e.state = .active ∧ e.recallOption = true ∧ e.target = .slot k then requestRecall s e.value .stale else s) s

/-- Slot `k` goes from FRESH to STALE, with its notice and then its recall requests (R108, R109, R110). -/
def makeStale (s : State) (k : SlotNo) (reason : StaleReason) : Posting :=
  (staleRequests (s.updSlot k fun x => x.goStale reason) k, [.slotStale k reason])

/-- Every FRESH slot of a source that has fallen silent goes STALE, in ascending number (R109). -/
def staleBySilence (s : State) (source : Station) : Posting :=
  (List.finRange 64).foldl (fun (p : Posting) k =>
    let x := p.1.store.slots[k]
    if x.state = .fresh ∧ x.contents.source = source then p.andThen fun s => makeStale s k .peerSilent else p) (s, [])

/-- Every FRESH slot goes STALE with reason LEFT at leave completion, with no notice (R114). -/
def slotsLeft (s : State) : State :=
  s.setStore { s.store with
    slots := tabMap (fun k => if k.state = .fresh then k.goStale .left else k) s.store.slots }

/-! ## Commands on the queues (5.6) -/

/-- The queue a command names, when its quota is above 0 (R95 to R97). -/
def enabledQueue (s : State) (b : Byte) : Option QueueNo :=
  (indexOf 8 b).bind fun q => if quotaOf s q = 0 then none else some q

/-- POP(q) (R95). -/
def popBody (args : List Byte) (s : State) : State × Response :=
  match args with
  | [b] =>
    match enabledQueue s b with
    | none => refuseWith s .badArgument
    | some q =>
      match s.store.queues[q].records with
      | [] => refuseWith s .empty
      | r :: rest =>
        let s1 := s.updQueue q fun x => { x with records := rest }
        (s1.setStore { s1.store with free := s1.store.free + 1 }, okData r.bytes)
  | _ => refuseWith s .badArgument

/-- PEEK(q) (R96). -/
def peekBody (args : List Byte) (s : State) : State × Response :=
  match args with
  | [b] =>
    match enabledQueue s b with
    | none => refuseWith s .badArgument
    | some q =>
      match s.store.queues[q].records with
      | [] => refuseWith s .empty
      | r :: _ => (s, okData r.bytes)
  | _ => refuseWith s .badArgument

/-- FLUSH(q) (R97). -/
def flushBody (args : List Byte) (s : State) : State × Response :=
  match args with
  | [b] =>
    match enabledQueue s b with
    | none => refuseWith s .badArgument
    | some q =>
      let n := s.store.queues[q].records.length
      let s1 := s.updQueue q fun x => { x with records := [] }
      (s1.setStore { s1.store with free := s1.store.free + n }, okData [byteOf n])
  | _ => refuseWith s .badArgument

/-- QUEUE STATUS(q, clear) (R98, R190). -/
def queueStatusBody (args : List Byte) (s : State) : State × Response :=
  match args with
  | [b, clear] =>
    match indexOf 8 b, indexOf 2 clear with
    | some q, some c =>
      (if c = 1 then s.updQueue q fun x => { x with overflow := false, dropped := 0 } else s,
       okData (queueStatusBytes s q))
    | _, _ => refuseWith s .badArgument
  | _ => refuseWith s .badArgument

/-! ## Commands on the slots (6.6) -/

/-- READ SLOT(k) (R112). -/
def readSlotBody (args : List Byte) (s : State) : State × Response :=
  match args with
  | [b] =>
    match indexOf 64 b with
    | none => refuseWith s .badArgument
    | some k => (s.updSlot k fun x => { x with changed := false }, okData s.store.slots[k].bytes)
  | _ => refuseWith s .badArgument

/-- The numbers of the slots whose changed flag is set, ascending (R113). -/
def changedSlots (s : State) : List SlotNo := (List.finRange 64).filter fun k => s.store.slots[k].changed

/-- LIST CHANGED SLOTS (R113). -/
def listChangedSlotsBody (args : List Byte) (s : State) : State × Response :=
  match args with
  | [] =>
    let ks := changedSlots s
    (s, okData (byteOf ks.length :: ks.map fun k => byteOf k.val))
  | _ => refuseWith s .badArgument

/-! ## Meanings -/

/-- POP (R95, R174). -/
def execPop (args : List Byte) (s : State) : Result := .next (takeCommand s 0x30 args (popBody args))

/-- PEEK (R96, R174). -/
def execPeek (args : List Byte) (s : State) : Result := .next (takeCommand s 0x31 args (peekBody args))

/-- FLUSH (R97, R174). -/
def execFlush (args : List Byte) (s : State) : Result := .next (takeCommand s 0x32 args (flushBody args))

/-- QUEUE_STATUS (R98, R174). -/
def execQueueStatus (args : List Byte) (s : State) : Result := .next (takeCommand s 0x33 args (queueStatusBody args))

/-- READ_SLOT (R112, R174). -/
def execReadSlot (args : List Byte) (s : State) : Result := .next (takeCommand s 0x40 args (readSlotBody args))

/-- LIST_CHANGED_SLOTS (R113, R174). -/
def execListChangedSlots (args : List Byte) (s : State) : Result :=
  .next (takeCommand s 0x41 args (listChangedSlotsBody args))

/-- FRESHNESS_DEADLINE_EXPIRY (R108): a FRESH slot whose deadline runs goes STALE. -/
def execFreshnessDeadlineExpiry (k : SlotNo) (s : State) : Result :=
  .next (whenRunning s fun s =>
    if s.store.slots[k].state = .fresh ∧ s.store.slots[k].deadline.isSome then
      settleBooking (makeStale s k .freshness).done
    else s)

end Sys2Proof.Machine
end

