-- ==== Sys2Proof/Machine/Acceptance.lean ====
section
/-! DEFINITION. The Acceptance Unit (chapter 4): the subscription table, the matching walk, and the settling of the
reservation list at the frame end. -/

namespace Sys2Proof.Machine

/-! ## The matching walk (4.3, 4.4) -/

/-- Whether an entry matches a frame (R69); `quota` is the quota of a queue. -/
def SubEntry.accepts (e : SubEntry) (quota : QueueNo → Nat) (h : Header) : Bool :=
  e.state == .active
  && (h.topic &&& e.mask) == (e.value &&& e.mask)
  && (match e.source with | none => true | some x => x == h.source)
  && (!h.own || e.acceptSelf)
  && (match e.target with | .slot _ => true | .queue q => decide (0 < quota q))

/-- Why a queue has no room, none when it has (R71); a queue marked spilled-over keeps the reason of its mark. -/
def noRoom (s : State) (q : QueueNo) : Option OverflowReason :=
  match s.accept.plan.spilled.find? (fun m => m.1 == q) with
  | some m => some m.2
  | none =>
    let x := s.store.queues[q]
    if quotaOf s q ≤ x.records.length + x.reserved.toNat then some .quota
    else if s.store.free = 0 then some .pool
    else none

/-- The reservation list changed. -/
def setPlan (s : State) (p : Plan) : State := s.setAccept { s.accept with plan := p }

/-- Entry `i` becomes engaged. -/
def engage (s : State) (i : SubIndex) : State := s.updSub i fun e => { e with engaged := true }

/-- A matching entry shares a target that is already reserved (R70). -/
def shareTarget (s : State) (i : SubIndex) (t : Target) : State :=
  engage (setPlan s { s.accept.plan with
    targets := s.accept.plan.targets.map fun r => if r.target = t then { r with sharers := r.sharers ++ [i] } else r }) i

/-- A matching entry reserves its target (R72). -/
def reserveTarget (s : State) (i : SubIndex) (t : Target) : State :=
  let s1 := engage (setPlan s { s.accept.plan with
    targets := s.accept.plan.targets ++ [{ target := t, reserver := i, sharers := [] }] }) i
  match t with
  | .queue q => reserveCell s1 q
  | .slot _ => s1

/-- A matching entry whose queue has no room (R73): spilled-over with SPILL set, the overflow mark with SPILL clear. -/
def missTarget (s : State) (q : QueueNo) (reason : OverflowReason) (spill : Bool) : State :=
  let p := s.accept.plan
  setPlan s (if spill then { p with spilled := p.spilled ++ [(q, reason)] } else { p with overflow := some (q, reason) })

/-- The walk visits entry `i`: the state after it, and whether the walk goes on (R69 to R73). -/
def visit (h : Header) (s : State) (i : SubIndex) : State × Bool :=
  let e := s.accept.table[i]
  if e.accepts (quotaOf s) h then
    if s.accept.plan.targets.any (fun r => r.target == e.target) then (shareTarget s i e.target, e.keepOn)
    else
      match e.target with
      | .slot _ => (reserveTarget s i e.target, e.keepOn)
      | .queue q =>
        match noRoom s q with
        | none => (reserveTarget s i e.target, e.keepOn)
        | some reason => (missTarget s q reason e.spill, e.spill)
  else (s, true)

/-- The walk over the indices given, in order (R68). -/
def walk (h : Header) : List SubIndex → State → State
  | [], s => s
  | i :: is, s =>
    let p := visit h s i
    if p.2 then walk h is p.1 else p.1

/-- The matching walk of one header-complete event, from an empty reservation list (R68). R74 says of a walk that only
spilled both that the list holds the spilled-over marks and that it is empty; the model keeps the marks until the frame is
closed (R82): the model's choice (log 25). -/
def matchingWalk (s : State) (h : Header) : State := walk h (List.finRange 32) (setPlan s Plan.empty)

/-! ## Frame end (4.6) -/

/-- Whether a classification delivers (R77). -/
def Classification.delivers : Classification → Bool
  | .fresh | .rebase | .inOrder | .gap _ => true
  | .duplicate | .behind => false

/-- The missing count that a delivery carries: GAP's, else 0 (R78). -/
def missingOf : Option Classification → Nat
  | some (.gap n) => n
  | _ => 0

/-- Whether the frame was classified GAP (R78). -/
def isGap : Option Classification → Bool
  | some (.gap _) => true
  | _ => false

/-- The entries engaged on a reserved target. -/
def Reserved.entries (r : Reserved) : List SubIndex := r.reserver :: r.sharers

/-- Whether entry `i` qualifies to deliver: TRACK clear, or a classification that delivers (R77, R78). -/
def qualifies (s : State) (c : Option Classification) (i : SubIndex) : Bool :=
  !s.accept.table[i].track || (match c with | some c => c.delivers | none => false)

/-- The lowest index of a list, `i` when it is empty. -/
def lowestOf (i : SubIndex) (is : List SubIndex) : SubIndex := is.foldl min i

/-- The classification of the frame, asked for when an engaged entry has TRACK set (R76). -/
def frameClassification (s : State) (source : Station) (topic : Topic) (seq : SeqNo) (first : Bool) :
    Option Classification :=
  if tabAny (fun e => e.engaged && e.track) s.accept.table then
    some (classify s.cont.tracker source topic seq first)
  else none

/-- The tracker after the frame (R76, R142). -/
def trackClassified (s : State) (source : Station) (topic : Topic) (seq : SeqNo) (c : Option Classification) : State :=
  match c with
  | some c => s.setCont { s.cont with tracker := trackFrame s.cont.tracker source topic seq s.line.clock c }
  | none => s

/-- The reserved target given back (R77, R81). -/
def releaseTarget (s : State) (t : Target) : State :=
  match t with
  | .queue q => releaseCell s q
  | .slot _ => s

/-- One reserved target settled at a CLEAN frame end (R77, R78, R79). -/
def settleTarget (own : Bool) (source : Station) (topic : Topic) (seq : SeqNo) (first again : Bool) (payload : List Byte)
    (c : Option Classification) (s : State) (r : Reserved) : State :=
  match r.entries.filter (qualifies s c) with
  | i :: is =>
    match r.target with
    | .queue q =>
      deliverQueue s q
        { topic := topic, source := source, seq := seq, first := first, again := again, selfMade := own, gap := isGap c,
          missing := missingOf c, entry := lowestOf i is, stamp := s.line.clock, payload := payload }
    | .slot k =>
      s.updSlot k fun x => x.deliver
        { topic := topic, source := source, seq := seq, first := first, again := again, selfMade := own, gap := isGap c,
          missing := missingOf c, payload := payload, stamp := s.line.clock }
  | [] =>
    match r.target, c with
    | .slot k, some .duplicate => s.updSlot k Slot.refresh
    | t, _ => releaseTarget s t

/-- Engagements end, WITHDRAWING entries become FREE, and the reservation list is emptied (R82). -/
def closeFrame (s : State) : State :=
  s.setAccept
    { table := tabMap (fun e => if e.state = .withdrawing then SubEntry.initial else { e with engaged := false })
        s.accept.table,
      plan := Plan.empty }

/-- Every reservation released and the frame closed, with nothing recorded (R81, R82, R83). -/
def releaseFrame (s : State) : State :=
  closeFrame (s.accept.plan.targets.foldl (fun s r => releaseTarget s r.target) s)

/-- The overflow mark recorded (R80). -/
def recordMark (s : State) : Posting :=
  match s.accept.plan.overflow with
  | some (q, reason) => recordOverflow s q reason
  | none => (s, [])

/-- The Acceptance Unit at the end of a CLEAN UPDATE that had a header-complete event (R76 to R80, R82). -/
def settleUpdate (own : Bool) (source : Station) (topic : Topic) (seq : SeqNo) (first again : Bool) (payload : List Byte)
    (s : State) : Posting :=
  let c := frameClassification s source topic seq first
  let s1 := trackClassified s source topic seq c
  let s2 := s1.accept.plan.targets.foldl (settleTarget own source topic seq first again payload c) s1
  let p := recordMark s2
  (closeFrame p.1, p.2)

/-- The Acceptance Unit at the end of a CLEAN frame (R76, R84). A frame of another kind has no header-complete event
(R13); where the state says it had one, its reservations are released (log 17). -/
def acceptanceAtFrame (own headerSeen : Bool) (f : Frame) (s : State) : Posting :=
  if headerSeen then
    match f.body with
    | .update first again topic seq payload => settleUpdate own f.source topic seq first again payload s
    | .recallFor _ | .epoch _ | .presence .. | .claim _ => (releaseFrame s, [])
  else (s, [])

/-! ## Commands (4.2) -/

/-- A new freshness limit is handed to the Message Store for a slot target (R64, R105). -/
def handLimit (s : State) (t : Target) (limit : Nat) : State :=
  match t with
  | .slot k => s.updSlot k fun x => x.setLimit limit
  | .queue _ => s

/-- The conditions of R63, step 3, on arguments whose bytes name a source and a target. -/
def subscribeAllowed (s : State) (mask : Topic) (t : Target) (recallOption : Bool) (limit : Nat) : Bool :=
  match t with
  | .queue q => decide (0 < quotaOf s q) && decide (limit = 0) && !recallOption
  | .slot _ => !recallOption || mask == 0xFFFF

/-- SUBSCRIBE (R63, R64, R65, R190). -/
def subscribeBody (args : List Byte) (s : State) : State × Response :=
  match args with
  | [index, v1, v0, m1, m0, source, kind, number, options, l1, l0] =>
    match indexOf 32 index with
    | none => refuseWith s .badArgument
    | some i =>
      if s.accept.table[i].state ≠ .free then refuseWith s .inUse
      else
        let value := word16 v1 v0
        let mask := word16 m1 m0
        let limit := (word16 l1 l0).toNat
        match sourceConstraintOf source, targetOf kind number with
        | some constraint, some target =>
          if options.toNat < 32 ∧ subscribeAllowed s mask target (options.getLsbD 4) limit = true then
            let s1 := s.updSub i fun _ =>
              { state := .active, value := value, mask := mask, source := constraint, target := target,
                keepOn := options.getLsbD 0, spill := options.getLsbD 1, acceptSelf := options.getLsbD 2,
                track := options.getLsbD 3, recallOption := options.getLsbD 4, limit := limit, engaged := false }
            let s2 := handLimit s1 target limit
            (settleBooking (if options.getLsbD 4 then requestRecall s2 value .fill else s2), plain .ok)
          else refuseWith s .badArgument
        | _, _ => refuseWith s .badArgument
  | _ => refuseWith s .badArgument

/-- UNSUBSCRIBE(index) (R66). -/
def unsubscribeBody (args : List Byte) (s : State) : State × Response :=
  match args with
  | [index] =>
    match indexOf 32 index with
    | none => refuseWith s .badArgument
    | some i =>
      match s.accept.table[i].state with
      | .free => refuseWith s .notFound
      | .active =>
        (s.updSub i fun e => if e.engaged then { e with state := .withdrawing } else SubEntry.initial, plain .ok)
      | .withdrawing => (s, plain .ok)
  | _ => refuseWith s .badArgument

/-- READ SUBSCRIPTION(index) (R67). -/
def readSubscriptionBody (args : List Byte) (s : State) : State × Response :=
  match args with
  | [index] =>
    match indexOf 32 index with
    | none => refuseWith s .badArgument
    | some i => (s, okData s.accept.table[i].bytes)
  | _ => refuseWith s .badArgument

/-- SUBSCRIBE (R63, R174). -/
def execSubscribe (args : List Byte) (s : State) : Result := .next (takeCommand s 0x20 args (subscribeBody args))

/-- UNSUBSCRIBE (R66, R174). -/
def execUnsubscribe (args : List Byte) (s : State) : Result := .next (takeCommand s 0x21 args (unsubscribeBody args))

/-- READ_SUBSCRIPTION (R67, R174). -/
def execReadSubscription (args : List Byte) (s : State) : Result :=
  .next (takeCommand s 0x22 args (readSubscriptionBody args))

end Sys2Proof.Machine
end

