-- ==== Sys2Proof/Machine/Publish.lean ====
section
/-! DEFINITION. The Publication Unit (chapter 7): the publication table, its scheduling and numbering, recall answers,
ownership conflicts, and the emptying of the transmit list. -/

namespace Sys2Proof.Machine

/-! ## Making an entry pending (7.3) -/

/-- An ACTIVE entry with a value is made pending NEW (R122): an item is placed when there is none, a REPEAT becomes NEW in
place, a NEW stays. -/
def makePendingNew (s : State) (i : PubIndex) : State :=
  let e := s.pubs.table[i]
  if e.state = .active ∧ e.hasValue = true then
    match e.item with
    | none => placeItem (s.updPub i fun e => { e with item := some .newValue }) (.update i) e.cls
    | some .repeatValue => s.updPub i fun e => { e with item := some .newValue }
    | some .newValue => s
  else s

/-- An entry without an item is made pending REPEAT (R122). -/
def makePendingRepeat (s : State) (i : PubIndex) : State :=
  placeItem (s.updPub i fun e => { e with item := some .repeatValue }) (.update i) s.pubs.table[i].cls

/-- Whether a mode has a periodic timer (R123). -/
def PubMode.isPeriodic : PubMode → Bool
  | .periodic | .both => true
  | .onWrite => false

/-- Whether a mode sends on a write (R119). -/
def PubMode.isOnWrite : PubMode → Bool
  | .onWrite | .both => true
  | .periodic => false

/-- The periodic timer of an entry started with the full period when its mode has one (R118, R124). -/
def PubEntry.startPeriod (e : PubEntry) : PubEntry :=
  if e.mode.isPeriodic then { e with periodicTimer := millis e.period } else e

/-- Both marks cleared. -/
def PubEntry.clearMarks (e : PubEntry) : PubEntry := { e with writtenSinceLatch := false, rePend := false }

/-- The announce of one entry at the entry into MEMBER (R124). -/
def announceEntry (s : State) (i : PubIndex) : State :=
  if s.pubs.table[i].state = .active then
    let s1 := s.updPub i fun e =>
      { e.clearMarks with nextSeq := 0, firstArmed := true, holdOff := none, dirty := e.dirty || e.hasValue }
    (makePendingNew s1 i).updPub i PubEntry.startPeriod
  else s

/-- The announce, in ascending index (R124). -/
def announce (s : State) : State := (List.finRange 32).foldl announceEntry s

/-! ## Attempt ends (7.4) -/

/-- The entry after the clean end of its item (R127), before the re-pend mark is examined. -/
def PubEntry.cleanEnd (e : PubEntry) (latchedRepeat : Bool) : PubEntry :=
  let e1 := { e with inFlight := false, item := none }
  if latchedRepeat then e1
  else { e1 with nextSeq := e.nextSeq + 1, firstArmed := false, dirty := e.dirty && e.writtenSinceLatch }

/-- The clean end of the entry's UPDATE (R127). -/
def updateSent (s : State) (i : PubIndex) (latchedRepeat : Bool) : State :=
  let e := s.pubs.table[i].cleanEnd latchedRepeat
  match e.state with
  | .withdrawing => s.updPub i fun _ => PubEntry.initial
  | .free | .active | .yielded =>
    let s1 := s.updPub i fun _ => { e with rePend := false }
    if e.rePend = true ∧ s.session.state = .member then makePendingNew s1 i else s1

/-- A collision of the entry's item that is not its sixteenth (R128). -/
def updateCollided (s : State) (i : PubIndex) : State :=
  match s.pubs.table[i].state with
  | .withdrawing => removeItem (s.updPub i fun _ => PubEntry.initial) (.update i)
  | .free | .active | .yielded =>
    if s.session.state = .leaving then
      removeItem (s.updPub i fun e => { e.clearMarks with inFlight := false, item := none }) (.update i)
    else s.updPub i fun e => { e with inFlight := false, rePend := false }

/-- The abandonment of the entry's item, which has been removed (R128). -/
def updateAbandoned (s : State) (i : PubIndex) : State :=
  s.updPub i fun e =>
    if e.state = .withdrawing then PubEntry.initial else { e.clearMarks with inFlight := false, item := none }

/-! ## Frame ends (7.5, 7.6) -/

/-- The ACTIVE entry with a topic. -/
def activeEntry (s : State) (topic : Topic) : Option PubIndex :=
  tabFind (fun e => e.state == .active && e.topic == topic) s.pubs.table

/-- The hold-off of an entry started (R130). -/
def startHoldOff (s : State) (i : PubIndex) : State :=
  s.updPub i fun e => { e with holdOff := millis (recordField s Record.recallHoldOff) }

/-- A foreign RECALL for the topic of an own ACTIVE entry with a value (R129). -/
def answerPeer (s : State) (topic : Topic) : State :=
  match activeEntry s topic with
  | none => s
  | some i =>
    let e := s.pubs.table[i]
    if s.session.state ≠ .member ∨ e.hasValue = false ∨ e.holdOff.isSome then s
    else if e.item.isSome then startHoldOff s i
    else if e.dirty then startHoldOff (makePendingNew s i) i
    else startHoldOff (makePendingRepeat s i) i

/-- The entry yields its topic (R131). -/
def PubEntry.yieldTo (e : PubEntry) (source : Station) : PubEntry :=
  { e.clearMarks with
    state := .yielded, yieldedTo := some source, item := none, periodicTimer := none, holdOff := none }

/-- A CLEAN foreign UPDATE for a topic of an own ACTIVE entry (R131, R132). -/
def ownershipConflict (s : State) (topic : Topic) (source : Station) : Posting :=
  match activeEntry s topic with
  | none => (s, [])
  | some i =>
    if source < ownNumber s then
      (removeItem (s.updPub i fun e => e.yieldTo source) (.update i), [.publicationYielded i source])
    else if ownNumber s < source then
      let s1 := s.updPub i fun e => { e with conflict := some source }
      (if s.session.state = .member then makePendingNew s1 i else s1, [.conflictObserved i source])
    else (s, [])

/-- The Publication Unit at the end of a CLEAN frame (R129, R131, R132). -/
def publicationAtFrame (own : Bool) (f : Frame) (s : State) : Posting :=
  if own then (s, [])
  else
    match f.body with
    | .update _ _ topic _ _ => ownershipConflict s topic f.source
    | .recallFor topic => (answerPeer s topic, [])
    | .epoch _ | .presence .. | .claim _ => (s, [])

/-! ## Refusal and leaving (7.9) -/

/-- The transmit list emptied, and every entry's pending item, marks, periodic timer and hold-off cleared (R137). -/
def stopSending (s : State) : State :=
  s.setPubs { s.pubs with
    items := [],
    table := tabMap (fun e => { e.clearMarks with item := none, periodicTimer := none, holdOff := none }) s.pubs.table }

/-- The Publication Unit at leave completion (R138). -/
def pubsLeft (s : State) : State :=
  let s1 := stopSending s
  s1.setPubs { s1.pubs with table := tabMap (fun e => { e with inFlight := false }) s1.pubs.table }

/-! ## Commands (7.2) -/

/-- The value that the argument bytes after the seventh give: absent, present, or of a wrong length (R190). -/
def declaredValue (rest : List Byte) : Option (Option (List Byte)) :=
  match rest with
  | [] => some none
  | n :: payload => if payload.length = n.toNat ∧ n.toNat ≤ 32 then some (some payload) else none

/-- The entry that an accepted DECLARE makes (R118). -/
def declaredEntry (topic : Topic) (cls : FrameClass) (mode : PubMode) (period : Nat) (value : Option (List Byte)) :
    PubEntry :=
  { PubEntry.initial with
    state := .active, topic := topic, cls := cls, mode := mode, period := period, hasValue := value.isSome,
    payload := value.getD [], dirty := value.isSome, firstArmed := true }

/-- DECLARE (R118, R190). -/
def declareBody (args : List Byte) (s : State) : State × Response :=
  match args with
  | index :: t1 :: t0 :: cls :: mode :: p1 :: p0 :: rest =>
    match declaredValue rest with
    | none => refuseWith s .badArgument
    | some value =>
      match indexOf 32 index with
      | none => refuseWith s .badArgument
      | some i =>
        if s.pubs.table[i].state ≠ .free then refuseWith s .inUse
        else
          match indexOf 8 cls, modeOf mode with
          | some c, some m =>
            let topic := word16 t1 t0
            let period := (word16 p1 p0).toNat
            if c.val = 0 ∨ c.val = 7 ∨ period = 0 then refuseWith s .badArgument
            else if ownsTopic s topic then refuseWith s .duplicateTopic
            else
              let s1 := s.updPub i fun _ => declaredEntry topic c m period value
              (if s.session.state = .member then
                 settleBooking ((makePendingNew s1 i).updPub i PubEntry.startPeriod)
               else s1,
               plain .ok)
          | _, _ => refuseWith s .badArgument
  | _ => refuseWith s .badArgument

/-- An ACTIVE entry takes a written value: a waiting or latched REPEAT becomes NEW (R119, R126). -/
def PubEntry.write (e : PubEntry) (value : List Byte) : PubEntry :=
  { e with
    payload := value, hasValue := true, dirty := true, item := e.item.map fun _ => .newValue,
    writtenSinceLatch := e.writtenSinceLatch || e.inFlight }

/-- Whether a write asks for a new frame: mode ON_WRITE or BOTH, station MEMBER or LEAVING (R119, R126). -/
def writeSends (s : State) (i : PubIndex) : Bool :=
  s.pubs.table[i].mode.isOnWrite && (s.session.state == .member || s.session.state == .leaving)

/-- A value written to an ACTIVE entry (R119, R126). -/
def writeEntry (s : State) (i : PubIndex) (value : List Byte) : State :=
  let s1 := s.updPub i fun e => e.write value
  if writeSends s i then
    if s.pubs.table[i].inFlight then s1.updPub i fun e => { e with rePend := true } else makePendingNew s1 i
  else s1

/-- WRITE VALUE (R119, R190). -/
def writeValueBody (args : List Byte) (s : State) : State × Response :=
  match args with
  | index :: n :: value =>
    if value.length ≠ n.toNat ∨ 32 < n.toNat then refuseWith s .badArgument
    else
      match indexOf 32 index with
      | none => refuseWith s .badArgument
      | some i =>
        match s.pubs.table[i].state with
        | .free | .withdrawing => refuseWith s .wrongState
        | .yielded => refuseWith s .yielded
        | .active => (settleBooking (writeEntry s i value), plain .ok)
  | _ => refuseWith s .badArgument

/-- WITHDRAW (R120). -/
def withdrawBody (args : List Byte) (s : State) : State × Response :=
  match args with
  | [index] =>
    match indexOf 32 index with
    | none => refuseWith s .badArgument
    | some i =>
      let e := s.pubs.table[i]
      match e.state with
      | .free => refuseWith s .notFound
      | .active =>
        (if e.inFlight then
           s.updPub i fun e => { e.clearMarks with state := .withdrawing, periodicTimer := none, holdOff := none }
         else removeItem (s.updPub i fun _ => PubEntry.initial) (.update i),
         plain .ok)
      | .withdrawing => (s, plain .ok)
      | .yielded => (s.updPub i fun _ => PubEntry.initial, plain .ok)
  | _ => refuseWith s .badArgument

/-- READ PUBLICATION (R121). -/
def readPublicationBody (args : List Byte) (s : State) : State × Response :=
  match args with
  | [index] =>
    match indexOf 32 index with
    | none => refuseWith s .badArgument
    | some i => (s, okData s.pubs.table[i].bytes)
  | _ => refuseWith s .badArgument

/-- DECLARE (R118, R174). -/
def execDeclare (args : List Byte) (s : State) : Result := .next (takeCommand s 0x50 args (declareBody args))

/-- WRITE_VALUE (R119, R174). -/
def execWriteValue (args : List Byte) (s : State) : Result := .next (takeCommand s 0x51 args (writeValueBody args))

/-- WITHDRAW (R120, R174). -/
def execWithdraw (args : List Byte) (s : State) : Result := .next (takeCommand s 0x52 args (withdrawBody args))

/-- READ_PUBLICATION (R121, R174). -/
def execReadPublication (args : List Byte) (s : State) : Result :=
  .next (takeCommand s 0x53 args (readPublicationBody args))

/-! ## Timers -/

/-- A periodic expiry (R123, R126): the timer restarts; with a value the entry is made pending NEW, and a REPEAT in flight
becomes NEW and must be followed by a new value. -/
def periodicExpiry (s : State) (i : PubIndex) : State :=
  let e := s.pubs.table[i]
  let s1 := s.updPub i fun e => { e with periodicTimer := millis e.period }
  if e.hasValue = false then s1
  else if e.inFlight then
    if e.item = some .repeatValue then s1.updPub i fun e => { e with item := some .newValue, rePend := true } else s1
  else makePendingNew s1 i

/-- PERIODIC_TIMER_EXPIRY (R123). -/
def execPeriodicTimerExpiry (i : PubIndex) (s : State) : Result :=
  .next (whenRunning s fun s =>
    if s.pubs.table[i].periodicTimer.isSome then settleBooking (periodicExpiry s i) else s)

/-- HOLD_OFF_EXPIRY (R130). -/
def execHoldOffExpiry (i : PubIndex) (s : State) : Result :=
  .next (whenRunning s fun s => s.updPub i fun e => { e with holdOff := none })

end Sys2Proof.Machine
end

