-- ==== Sys2Proof/Machine/Epoch.lean ====
section
/-! DEFINITION. The Epoch Unit (chapter 9): the epoch request, the capture into the snapshot banks, and the commands EPOCH,
SNAPSHOT_OPEN, SNAPSHOT_READ and SNAPSHOT_RELEASE. -/

namespace Sys2Proof.Machine

/-! ## The request (9.1, 9.2) -/

/-- The request becomes NONE, and the latched number with it (R155). -/
def EpochUnit.settled (u : EpochUnit) : EpochUnit := { u with request := .none, latched := none }

/-- The number that the next attempt latches (R158). -/
def EpochUnit.nextNumber (u : EpochUnit) : SeqNo :=
  match u.lastSeen with
  | some e => e + 1
  | none => 0

/-- A request that is waiting is cancelled, with EPOCH_DONE(CANCELLED) (R166, R167). Its item goes with the whole transmit
list. -/
def cancelEpoch (s : State) : Posting :=
  (s.setEpoch s.epoch.settled, if s.epoch.request = .none then [] else [.epochDone .cancelled])

/-- The Epoch Unit at leave completion (R167). -/
def epochLeft (s : State) : Posting :=
  let p := cancelEpoch s
  (p.1.setEpoch { p.1.epoch with lastSeen := none }, p.2)

/-- A collision that is not the sixteenth (R159): the request waits again. -/
def epochCollided (s : State) : State := s.setEpoch { s.epoch with request := .waiting }

/-- The abandonment of the item (R159). -/
def epochAbandoned (s : State) : Posting := (s.setEpoch s.epoch.settled, [.epochDone .abandoned])

/-! ## Capture (9.3) -/

/-- A slot as a bank keeps it (R115, R156). -/
def Slot.copy (k : Slot) : SlotCopy := { state := k.state, reason := k.reason, contents := k.contents }

/-- The other bank. -/
def otherBank (b : Fin 2) : Fin 2 := 1 - b

/-- The bank a capture goes into (R161): the lowest EMPTY one, else the one that is not HELD, else the older of two FILLED
ones. -/
def chooseBank (u : EpochUnit) : Fin 2 :=
  if u.banks[0].state = .empty then 0
  else if u.banks[1].state = .empty then 1
  else if u.banks[0].state = .held then 1
  else if u.banks[1].state = .held then 0
  else
    match u.latest with
    | some b => otherBank b
    | none => 0

/-- The capture of epoch `e` of source `x` into the chosen bank; an overwritten bank posts SNAPSHOT_OVERRUN (R161). -/
def captureInto (s : State) (e : SeqNo) (x : Station) : Posting :=
  let b := chooseBank s.epoch
  (s.setEpoch { s.epoch with
      lastSeen := some e,
      banks := upd s.epoch.banks b fun _ =>
        { state := .filled, number := e, source := x, stamp := s.line.clock, copies := tabMap Slot.copy s.store.slots },
      latest := some b },
   if s.epoch.banks[b].state = .filled then [.snapshotOverrun s.epoch.banks[b].number] else [])

/-- The duplicate and gap test, and the capture (R160, R161). -/
def capture (s : State) (e : SeqNo) (x : Station) : Posting :=
  match s.epoch.lastSeen with
  | none => captureInto s e x
  | some l =>
    if e = l then (s, [])
    else
      let p := captureInto s e x
      if e = l + 1 then p else (p.1, .epochGap (l + 1) e :: p.2)

/-- The request settled after the capture step (R159, R162): SENT by the own EPOCH, MERGED by a foreign one. -/
def settleRequest (own : Bool) (e : SeqNo) (x : Station) (s : State) : Posting :=
  if own then (s.setEpoch s.epoch.settled, [.epochDone (.sent e x)])
  else if s.epoch.request = .waiting then
    (removeItem (s.setEpoch s.epoch.settled) .epoch, [.epochDone (.merged e x)])
  else (s, [])

/-- The Epoch Unit at the end of a CLEAN frame. -/
def epochAtFrame (own : Bool) (f : Frame) (s : State) : Posting :=
  match f.body with
  | .epoch e => (capture s e f.source).andThen (settleRequest own e f.source)
  | .update .. | .recallFor _ | .presence .. | .claim _ => (s, [])

/-! ## Commands -/

/-- EPOCH (R157). -/
def epochBody (args : List Byte) (s : State) : State × Response :=
  match args with
  | [] =>
    if s.session.state ≠ .member then refuseWith s .wrongState
    else if s.epoch.request = .none then
      (settleBooking (placeItem (s.setEpoch { s.epoch with request := .waiting }) .epoch 0), plain .pending)
    else (s, plain .pending)
  | _ => refuseWith s .badArgument

/-- The bank that is HELD (R156). -/
def heldBank (u : EpochUnit) : Option (Fin 2) := tabFind (fun b => b.state == .held) u.banks

/-- The FILLED bank that SNAPSHOT OPEN takes: the one the latest-capture mark names (R164), and the lowest FILLED one where
the mark names none (log 17). -/
def newestFilled (u : EpochUnit) : Option (Fin 2) :=
  match u.latest with
  | some b => if u.banks[b].state = .filled then some b else tabFind (fun b => b.state == .filled) u.banks
  | none => tabFind (fun b => b.state == .filled) u.banks

/-- SNAPSHOT OPEN (R164). -/
def snapshotOpenBody (args : List Byte) (s : State) : State × Response :=
  match args with
  | [] =>
    if (heldBank s.epoch).isSome then refuseWith s .alreadyOpen
    else
      match newestFilled s.epoch with
      | none => refuseWith s .empty
      | some b =>
        let k := s.epoch.banks[b]
        (s.setEpoch { s.epoch with banks := upd s.epoch.banks b fun k => { k with state := .held } },
         okData (k.number :: byteOf k.source.val :: bytes32 k.stamp.toNat))
  | _ => refuseWith s .badArgument

/-- SNAPSHOT READ(k) (R165). -/
def snapshotReadBody (args : List Byte) (s : State) : State × Response :=
  match args with
  | [b] =>
    match indexOf 64 b with
    | none => refuseWith s .badArgument
    | some k =>
      match heldBank s.epoch with
      | none => refuseWith s .notOpen
      | some h => (s, okData (s.epoch.banks[h].copies[k]).bytes)
  | _ => refuseWith s .badArgument

/-- The latest-capture mark after bank `h` has become EMPTY (R155, R165). -/
def markAfterRelease (u : EpochUnit) (h : Fin 2) : Option (Fin 2) :=
  if u.latest = some h then (if u.banks[otherBank h].state = .filled then some (otherBank h) else none) else u.latest

/-- SNAPSHOT RELEASE (R165). -/
def snapshotReleaseBody (args : List Byte) (s : State) : State × Response :=
  match args with
  | [] =>
    match heldBank s.epoch with
    | none => refuseWith s .notOpen
    | some h =>
      (s.setEpoch { s.epoch with
         banks := upd s.epoch.banks h fun _ => Bank.initial, latest := markAfterRelease s.epoch h },
       plain .ok)
  | _ => refuseWith s .badArgument

/-- EPOCH (R157, R174). -/
def execEpoch (args : List Byte) (s : State) : Result := .next (takeCommand s 0x70 args (epochBody args))

/-- SNAPSHOT_OPEN (R164, R174). -/
def execSnapshotOpen (args : List Byte) (s : State) : Result := .next (takeCommand s 0x71 args (snapshotOpenBody args))

/-- SNAPSHOT_READ (R165, R174). -/
def execSnapshotRead (args : List Byte) (s : State) : Result := .next (takeCommand s 0x72 args (snapshotReadBody args))

/-- SNAPSHOT_RELEASE (R165, R174). -/
def execSnapshotRelease (args : List Byte) (s : State) : Result :=
  .next (takeCommand s 0x73 args (snapshotReleaseBody args))

end Sys2Proof.Machine
end

