-- ==== Sys2Proof/Machine/Roster.lean ====
section
/-! DEFINITION. The Roster (3.7): the entries of the peers, READ_ROSTER and SILENCE_DEADLINE_EXPIRY. -/

namespace Sys2Proof.Machine

/-- The silence deadline from the record (R57, R59): silence multiple times presence interval times 10 ms. -/
def silenceTime (s : State) : Timer := millis (recordField s fun r => r.silenceMultiple * r.presenceInterval * 10)

/-- The entry of the own number at JOIN (R56). -/
def RosterEntry.self (tag : UnitTag) : RosterEntry :=
  { RosterEntry.absentEntry with state := .selfEntry, tag := some tag }

/-- An entry that has heard a CLEAN frame (R57, steps 1 to 3): state, last heard and deadline. -/
def RosterEntry.heard (e : RosterEntry) (stamp : Stamp) (deadline : Timer) : RosterEntry :=
  { e with
    state := (match e.state with | .absent | .silent | .present => .present | .selfEntry => .selfEntry),
    lastHeard := stamp, deadline := deadline }

/-- The notice of a peer that has come or come back (R57, step 1). -/
def arrivalNotice (e : RosterEntry) (x : Station) : List Notice :=
  match e.state with
  | .absent => [.peerJoined x]
  | .silent => [.peerReturned x]
  | .present | .selfEntry => []

/-- Caution flag, last epoch and tag from a PRESENCE or a CLAIM (R57, steps 4 and 5; R58). -/
def RosterEntry.identify (e : RosterEntry) (caution : Bool) (last : Option SeqNo) (tag : UnitTag) : RosterEntry :=
  { e with caution := caution, lastEpoch := last, tag := some tag }

/-- Whether a frame's tag replaces a different one (R58). -/
def RosterEntry.replacedBy (e : RosterEntry) (tag : UnitTag) : Bool :=
  match e.tag with
  | some t => t != tag
  | none => false

/-- The tag handled by R58 for a PRESENCE or a CLAIM. -/
def identifyPeer (s : State) (x : Station) (caution : Bool) (last : Option SeqNo) (tag : UnitTag) : Posting :=
  let e := s.roster[x]
  let s1 := s.updRoster x fun e => e.identify caution last tag
  if e.replacedBy tag then (dropSource s1 x, [.peerReplaced x]) else (s1, [])

/-- The last epoch that a PRESENCE reports (R57, step 4). -/
def reportedEpoch (noEpoch : Bool) (last : SeqNo) : Option SeqNo := if noEpoch then none else some last

/-- A CLEAN frame from a peer with another number than the own (R57, R58). -/
def hearPeer (s : State) (f : Frame) : Posting :=
  let x := f.source
  let p : Posting :=
    (s.updRoster x fun e => e.heard s.line.clock (silenceTime s), arrivalNotice s.roster[x] x)
  match f.body with
  | .presence caution _ noEpoch tag last =>
    p.andThen fun s => identifyPeer s x caution (reportedEpoch noEpoch last) tag
  | .claim tag => p.andThen fun s => identifyPeer s x false none tag
  | .update .. | .recallFor _ | .epoch _ => p

/-- The Roster at the end of a CLEAN frame (R56, R57): an own frame sets the last heard of the SELF entry; a foreign frame
that bears the own number does not touch the roster. -/
def rosterAtFrame (own : Bool) (f : Frame) (s : State) : Posting :=
  if own then (s.updRoster (ownNumber s) fun e => { e with lastHeard := s.line.clock }, [])
  else if f.source = ownNumber s then (s, [])
  else hearPeer s f

/-- READ ROSTER(s) (R60). -/
def readRosterBody (args : List Byte) (s : State) : State × Response :=
  match args with
  | [b] =>
    match indexOf 32 b with
    | none => refuseWith s .badArgument
    | some x => (s, okData s.roster[x].bytes)
  | _ => refuseWith s .badArgument

/-- READ_ROSTER (R60, R174). -/
def execReadRoster (args : List Byte) (s : State) : Result := .next (takeCommand s 0x10 args (readRosterBody args))

/-- The peer falls silent, and the Message Store is told (R59, R109). -/
def peerFallsSilent (x : Station) (s : State) : Posting :=
  let p : Posting := (s.updRoster x fun e => { e with state := .silent, deadline := none }, [.peerSilent x])
  p.andThen fun s => staleBySilence s x

/-- SILENCE_DEADLINE_EXPIRY (R59): the deadline of a PRESENT entry expires. -/
def execSilenceDeadlineExpiry (x : Station) (s : State) : Result :=
  .next (whenRunning s fun s =>
    if s.roster[x].state = .present ∧ s.roster[x].deadline.isSome then settleBooking (peerFallsSilent x s).done else s)

end Sys2Proof.Machine
end

