-- ==== Sys2Proof/Machine/Session.lean ====
section
/-! DEFINITION. The Session Controller (chapter 3): the record, JOIN, LEAVE, the claim, presence, duplicate numbers,
refusal and leave completion. -/

namespace Sys2Proof.Machine

/-! ## Timers -/

/-- The presence timer at its full interval (R49). -/
def presenceTime (s : State) : Timer := millis (recordField s fun r => r.presenceInterval * 10)

/-- The presence timer restarted. -/
def restartPresence (s : State) : State := s.setSession { s.session with presenceTimer := presenceTime s }

/-- Whether the transmit list holds a PRESENCE item, normal or defence (R48, R49). -/
def presenceWaiting (s : State) : Bool := s.pubs.items.any Item.isPresence

/-! ## Refusal (R51) -/

/-- The station is refused: state REFUSED, timers stopped, and the owners of outgoing work told in the order of R51. -/
def refuse (reason : RefusalReason) (s : State) : Posting :=
  let s1 := s.setSession { s.session with state := .refused, listenWindow := none, presenceTimer := none }
  let s2 := stopSending s1
  let p : Posting := (s2.setAccess { s2.access with booking := none }, [.sessionRefused reason])
  (p.andThen cancelRecalls).andThen cancelEpoch

/-! ## Duplicate numbers (3.3) -/

/-- To defend (R48): a defence in the list stays, another PRESENCE is turned into one and placed anew with its attempt
count, and with none in the list a new one is placed. -/
def defend (s : State) : State :=
  match s.pubs.items.find? Item.isPresence with
  | none => placeItem s (.presence true) 0
  | some it =>
    if it.kind = .presence true then s
    else placeWith (removeItem s (.presence false)) (.presence true) 0 it.attempts

/-- A CLEAN foreign frame bearing the own number, in MEMBER (R47). -/
def answerDuplicate (f : Frame) (s : State) : Posting :=
  match f.body with
  | .claim _ => (defend s, [])
  | .presence _ _ _ tag _ =>
    let own := recordField s fun r => r.unitTag.toNat
    if tag.toNat < own then refuse .duplicateLost s
    else if tag.toNat = own then (defend s, [.duplicateSuspected .presence])
    else (defend s, [])
  | .update .. | .recallFor _ | .epoch _ => (defend s, [.duplicateSuspected f.body.kind])

/-! ## Entry into MEMBER, and frame ends -/

/-- The CLAIM ended clean in CLAIMING (R46): MEMBER, the presence timer started, and the announce of R124. -/
def enterMember (s : State) : Posting :=
  (announce (restartPresence (s.setSession { s.session with state := .member })), [.joined])

/-- An own clean end (R46, R49): the clean CLAIM in CLAIMING makes the station MEMBER; in MEMBER every own clean end
restarts the presence timer. -/
def ownCleanEnd (f : Frame) (s : State) : Posting :=
  match s.session.state, f.body with
  | .claiming, .claim _ => enterMember s
  | .member, _ => (restartPresence s, [])
  | _, _ => (s, [])

/-- A foreign frame bearing the own number (R44, R45, R47, R52). -/
def foreignOwnNumber (f : Frame) (s : State) : Posting :=
  match s.session.state with
  | .listening | .claiming => refuse .stationTaken s
  | .member => answerDuplicate f s
  | .offline | .leaving | .refused => (s, [])

/-- The Session Controller at the end of a CLEAN frame. -/
def sessionAtFrame (own : Bool) (f : Frame) (s : State) : Posting :=
  if own then ownCleanEnd f s
  else if f.source = ownNumber s then foreignOwnNumber f s
  else (s, [])

/-! ## Leave completion (R55) -/

/-- The Line Interface at leave completion (R18): inactive, its clock kept. -/
def LineInterface.left (l : LineInterface) : LineInterface := { LineInterface.initial with clock := l.clock }

/-- The parts of leave completion that post no notice: every owner of R55 but the Continuity Unit's and the Epoch Unit's
cancellations. -/
def clearSession (s : State) : State :=
  let s1 := slotsLeft (pubsLeft (releaseFrame s))
  let s2 := s1.setRoster (Vector.replicate 32 RosterEntry.absentEntry)
  let s3 := s2.setCont { s2.cont with tracker := [] }
  let s4 := (s3.setAccess AccessController.initial).setLine s3.line.left
  s4.setSession { s4.session with frozen := false, state := .offline, listenWindow := none, presenceTimer := none }

/-- The notices of the Access Controller and the Session Controller at leave completion (R39, R55). -/
def leftNotices (s : State) : List Notice :=
  (if s.access.standing = .normal then [] else [.standingChanged .normal]) ++ [.left]

/-- Leave completion, with its notices in the order of R55. -/
def leaveComplete (s : State) : Posting :=
  ((cancelRecalls s).andThen epochLeft).andThen fun s => (clearSession s, leftNotices s)

/-! ## CONFIGURE, JOIN and LEAVE -/

/-- CONFIGURE (R41, R42, R100, R190). -/
def configureBody (args : List Byte) (s : State) : State × Response :=
  if args.length ≠ 27 then refuseWith s .badArgument
  else if s.session.state ≠ .offline then refuseWith s .wrongState
  else
    match recordOf args with
    | none => refuseWith s .badArgument
    | some r => (emptyQueues (s.setSession { s.session with record := some r }), plain .ok)

/-- A JOIN that is taken (R43, R18, R39, R56), with record `r`. The gap is counted from the JOIN while the line is idle. -/
def joinWith (r : Record) (s : State) : State :=
  let s1 := s.setSession { s.session with
    frozen := true, state := .listening, listenWindow := millis (r.listenMultiple * r.presenceInterval * 10) }
  let s2 := s1.setLine { s1.line with
    rate := some r.rate, receive := .seeking, send := .off, blocked := none, level := .idle, gap := some 0 }
  let s3 := s2.setAccess AccessController.initial
  s3.updRoster r.station fun _ => RosterEntry.self r.unitTag

/-- JOIN (R43). -/
def joinBody (args : List Byte) (s : State) : State × Response :=
  match args with
  | [] =>
    if s.session.state ≠ .offline then refuseWith s .wrongState
    else
      match s.session.record with
      | none => refuseWith s .notConfigured
      | some r => (joinWith r s, plain .pending)
  | _ => refuseWith s .badArgument

/-- LEAVE taken in a state other than OFFLINE and LEAVING (R53). -/
def leaveNow (s : State) : State :=
  if s.access.inFlight.isSome then
    settleBooking (s.setSession { s.session with state := .leaving, listenWindow := none, presenceTimer := none })
  else (leaveComplete s).done

/-- LEAVE (R53). -/
def leaveBody (args : List Byte) (s : State) : State × Response :=
  match args with
  | [] =>
    match s.session.state with
    | .offline => refuseWith s .wrongState
    | .leaving => (s, plain .ok)
    | .listening | .claiming | .member | .refused => (leaveNow s, plain .ok)
  | _ => refuseWith s .badArgument

/-- CONFIGURE (R41, R174). -/
def execConfigure (args : List Byte) (s : State) : Result := .next (takeCommand s 0x01 args (configureBody args))

/-- JOIN (R43, R174). -/
def execJoin (args : List Byte) (s : State) : Result := .next (takeCommand s 0x02 args (joinBody args))

/-- LEAVE (R53, R174). -/
def execLeave (args : List Byte) (s : State) : Result := .next (takeCommand s 0x03 args (leaveBody args))

/-! ## Timers -/

/-- The listen window runs out: CLAIMING, with a CLAIM placed (R44). -/
def startClaiming (s : State) : State :=
  placeItem (s.setSession { s.session with state := .claiming, listenWindow := none }) .claim 7

/-- LISTEN_WINDOW_EXPIRY (R44). -/
def execListenWindowExpiry (s : State) : Result :=
  .next (whenRunning s fun s =>
    if s.session.state = .listening ∧ s.session.listenWindow.isSome then settleBooking (startClaiming s) else s)

/-- The presence timer restarts and places a PRESENCE of class 7 when none is in the list (R49). -/
def presenceExpiry (s : State) : State :=
  let s1 := restartPresence s
  if presenceWaiting s1 then s1 else placeItem s1 (.presence false) 7

/-- PRESENCE_TIMER_EXPIRY (R49). -/
def execPresenceTimerExpiry (s : State) : Result :=
  .next (whenRunning s fun s =>
    if s.session.presenceTimer.isSome then settleBooking (presenceExpiry s) else s)

end Sys2Proof.Machine
end

