-- ==== Sys2Proof/Machine/Access.lean ====
section
/-! DEFINITION. The Access Controller and the Line Interface outside a frame (chapters 1 and 2): line activity, the gap,
contention slots, attempts, collisions, the jam and the blocked line. -/

namespace Sys2Proof.Machine

/-! ## Line activity, the gap and the slot cycle -/

/-- Whether the receive side looks for a gap (R5, R18): not in a frame, and not inactive. -/
def ReceiveCondition.awaitsGap (r : ReceiveCondition) : Bool :=
  match r with
  | .seeking | .betweenFrames => true
  | .inactive | .inFrame _ => false

/-- Whether the station is driving its jam (R15). -/
def SendCondition.isJamming (c : SendCondition) : Bool :=
  match c with
  | .jamming _ => true
  | .off | .sending _ => false

/-! ## The echo comparator (R16) -/

/-- What the station sends in the attempt under way: the covered bytes and the check (R15). -/
def sentBytes (s : State) : List Byte :=
  match s.access.inFlight with
  | some f => withCheck f.covered
  | none => []

/-- The first bit time in which two runs of levels differ. -/
def firstDifference : List LineLevel → List LineLevel → Option Nat
  | d :: ds, r :: rs => if d = r then (firstDifference ds rs).map (· + 1) else some 0
  | _, _ => none

/-- Whether the comparator compares (R16): an attempt is under way and has had no collision. -/
def comparing (s : State) : Bool := s.access.inFlight.isSome && !s.line.send.isJamming

/-- What every line activity does (R5, R7, R19, R27): the slot count ends, the booking is dropped, the gap under way is
cancelled and a new count starts with the idle that followed; while the line is still active none is counted. The
blocked-line measure starts if it is not running. `cut` says that the activity shows a mismatch, and an own start mark
cut by one stays so until its run has ended. In an attempt the bit times of a run that has ended are counted (R16). -/
def noteActivity (s : State) (run idle : Nat) (cut : Bool) : State :=
  let s1 := s.setAccess { s.access with slotTime := none, booking := none }
  s1.setLine { s1.line with
    level := if idle = 0 then .active else .idle,
    gap := if idle = 0 then none else some (idle * lineBit s),
    markHeard := if comparing s && idle != 0 then s.line.markHeard + run + idle else s.line.markHeard,
    markCut := decide (idle = 0) && (cut || s.line.markCut),
    blocked := some (s.line.blocked.getD { elapsed := (run + idle) * lineBit s, reported := false }) }

/-- A start mark opens a frame (R3). It carries the own marker when an attempt of this station is being sent, and not
when the station drives its jam (R16, log 14). -/
def openFrameAt (s : State) : State :=
  s.setLine { s.line with
    gap := none,
    receive := .inFrame { own := comparing s, headerSeen := false, heard := 0, rx := Receiver.start } }

/-- Whether an activity opens a frame: a start mark in BETWEEN_FRAMES (R3, R18), also while the station drives its jam; not
the own start mark when a mismatch has cut it (R16). -/
def opensFrame (s : State) (a : Activity) : Bool :=
  a == .startMark && s.line.receive == .betweenFrames && !s.line.markCut

/-- The first mismatch of the attempt under way (R16): the levels driven, from the attempt's bit time `offset` on, against
those received, up to the last stop bit. Nothing is compared without an attempt and during the jam. -/
def echoMismatch (s : State) (offset : Nat) (received : List LineLevel) : Option Nat :=
  if comparing s then
    (firstDifference ((frameLevels (sentBytes s)).drop offset) received).map (· + offset)
  else none

/-- The attempt count of an item of kind `kind` raised by one. -/
def countAttempt (s : State) (kind : ItemKind) : State :=
  s.setPubs { s.pubs with
    items := s.pubs.items.map fun it => if it.kind = kind then { it with attempts := it.attempts + 1 } else it }

/-- A mismatch in the attempt of `f` (R31): jam, bases 31, score + 8, attempt count + 1. -/
def collide (f : Flight) (s : State) : State :=
  let s1 := resetBases (s.setLine { s.line with send := .jamming (24 * lineBit s) })
  settleBooking ((raiseScore (countAttempt s1 f.kind) 8).done)

/-- The comparator's report is a collision of the item in flight (R31). -/
def collideAt (mismatch : Option Nat) (s : State) : State :=
  match mismatch, s.access.inFlight with
  | some _, some f => collide f s
  | _, _ => s

/-- The levels of an activity. -/
def activityLevels (run idle : Nat) : List LineLevel := List.replicate run .active ++ List.replicate idle .idle

/-- A start mark, noise or a jam seen outside a frame (R3, R5, R6, R7, R18, R19, R27). In an attempt it is the echo of the
station's own start mark, compared from the bit time behind the activities before it: a mismatch in its 8 bit times leaves
the start mark unaccepted (R16). -/
def lineActivity (run idle : Nat) (s : State) : State :=
  match classifyActivity run idle with
  | none => s
  | some a =>
    if s.line.receive.awaitsGap then
      let m := echoMismatch s s.line.markHeard (activityLevels run idle)
      let s1 := noteActivity s run idle m.isSome
      collideAt m (if opensFrame s a && m.all (8 ≤ ·) then openFrameAt s1 else s1)
    else s

/-- A start mark that was not given as an activity and is implied (log 2): a run of its own, from the first bit time of an
attempt on. -/
def impliedMark (s : State) : State := lineActivity 6 2 (s.setLine { s.line with markCut := false, markHeard := 0 })

/-- LINE_ACTIVITY (R19). -/
def execLineActivity (run idle : Nat) (s : State) : Result := .next (whenRunning s (lineActivity run idle))

/-- Whether the line is idle outside a frame (R1): nobody is reported active, and the station drives nothing. -/
def LineInterface.isIdle (l : LineInterface) : Bool := l.level == .idle && l.send == .off

/-- Whether a gap can end: an idle line, no attempt under way, and slots not yet counted since the last activity (R5). -/
def gapCanEnd (s : State) : Bool :=
  s.line.receive.awaitsGap && s.line.isIdle && s.access.inFlight.isNone && s.access.slotTime.isNone

/-- The gap end (R5, R7, R18, R19, R24). -/
def gapEnd (s : State) : State :=
  let s1 := s.setLine { s.line with receive := .betweenFrames, gap := none, blocked := none }
  bookAtCycle (s1.setAccess { s1.access with slotTime := some 0 })

/-- GAP_END (R5). -/
def execGapEnd (s : State) : Result := .next (whenRunning s fun s => if gapCanEnd s then gapEnd s else s)

/-- A new slot cycle begins (R19, R24). -/
def slotCycleStart (s : State) : State := bookAtCycle (s.setAccess { s.access with slotTime := some 0 })

/-- SLOT_CYCLE_START (R19): with slots being counted, a new cycle begins. -/
def execSlotCycleStart (s : State) : Result :=
  .next (whenRunning s fun s => if s.access.slotTime.isSome then slotCycleStart s else s)

/-! ## The start of an attempt (R26, R28) -/

/-- The UPDATE that the entry latches (R125). -/
def PubEntry.latch (e : PubEntry) (source : Station) : Frame :=
  match e.item with
  | some .repeatValue =>
    { cls := e.cls, source := source, body := .update false true e.topic (e.nextSeq - 1) e.payload }
  | some .newValue | none =>
    { cls := e.cls, source := source, body := .update e.firstArmed false e.topic e.nextSeq e.payload }

/-- The PRESENCE that is latched (R50). -/
def presenceFrame (s : State) (defence : Bool) : Frame :=
  { cls := if defence then 0 else 7, source := ownNumber s,
    body := .presence (s.access.standing == .caution) defence s.epoch.lastSeen.isNone
      (match s.session.record with | some r => r.unitTag | none => 0) (s.epoch.lastSeen.getD 0) }

/-- The frame that the owner of an item latches (R28, R45, R50, R125, R148, R158). -/
def latchedFrame (s : State) (kind : ItemKind) : Frame :=
  match kind with
  | .claim =>
    { cls := 7, source := ownNumber s,
      body := .claim (match s.session.record with | some r => r.unitTag | none => 0) }
  | .presence defence => presenceFrame s defence
  | .epoch => { cls := 0, source := ownNumber s, body := .epoch s.epoch.nextNumber }
  | .recallItem topic => { cls := 1, source := ownNumber s, body := .recallFor topic }
  | .update i => s.pubs.table[i].latch (ownNumber s)

/-- Whether an UPDATE is latched as a REPEAT (R127). -/
def latchesRepeat (s : State) (kind : ItemKind) : Bool :=
  match kind with
  | .update i => s.pubs.table[i].item == some .repeatValue
  | .claim | .presence _ | .epoch | .recallItem _ => false

/-- What the latch changes in the owner (R125, R158). -/
def noteLatch (s : State) (kind : ItemKind) : State :=
  match kind with
  | .epoch => s.setEpoch { s.epoch with request := .inFlight, latched := some s.epoch.nextNumber }
  | .update i => s.updPub i fun e => { e with inFlight := true, writtenSinceLatch := false }
  | .claim | .presence _ | .recallItem _ => s

/-- How long a frame with the given covered bytes is driven, in half microseconds (R15). -/
def sendTime (s : State) (covered : List Byte) : Nat := (frameLevels (withCheck covered)).length * lineBit s

/-- An attempt starts for the head (R15, R28): the frame is latched and sent, and the item is in flight. The station's own
start mark ends the slot count (R19) and starts the blocked-line measure (R7). -/
def startAttempt (s : State) (it : Item) : State :=
  let covered := encodeFrame (latchedFrame s it.kind)
  let s1 := noteLatch s it.kind
  let s2 := s1.setAccess { s1.access with
    slotTime := none, inFlight := some { kind := it.kind, latchedRepeat := latchesRepeat s it.kind, covered := covered } }
  s2.setLine { s2.line with
    send := .sending (sendTime s covered), gap := none, markHeard := 0,
    blocked := some (s2.line.blocked.getD { elapsed := 0, reported := false }) }

/-- Whether a booked slot can begin with the line idle (R26). -/
def slotCanBegin (s : State) : Bool :=
  s.access.slotTime.isSome && s.line.receive == .betweenFrames && s.line.send == .off && s.access.inFlight.isNone

/-- The booked slot `b` begins (R26): an attempt for the head, or the booking lapses. The slot time is at least the slot's
start (log 13). -/
def bookedSlotStart (b : Fin 256) (s : State) : State :=
  let s1 := s.setAccess { s.access with
    booking := none, slotTime := some (max (s.access.slotTime.getD 0) (slotStart s b)) }
  match permission s1, s1.pubs.items.head? with
  | true, some it => startAttempt s1 it
  | _, _ => s1

/-- BOOKED_SLOT_START (R26). -/
def execBookedSlotStart (s : State) : Result :=
  .next (whenRunning s fun s =>
    match s.access.booking with
    | some b => if slotCanBegin s then bookedSlotStart b s else s
    | none => s)

/-- SEND_END (R15): the driver is switched off after the last stop bit. -/
def execSendEnd (s : State) : Result :=
  .next (whenRunning s fun s =>
    match s.line.send with
    | .sending _ => s.setLine { s.line with send := .off }
    | .off | .jamming _ => s)

/-! ## Collision and jam (R31 to R33) -/

/-- The attempt count of the item of kind `kind`. -/
def attemptsOf (s : State) (kind : ItemKind) : Nat :=
  match s.pubs.items.find? (fun it => it.kind == kind) with
  | some it => it.attempts
  | none => 0

/-- The own start mark inside the levels of a mismatch, where it was not given as an activity. Before a mismatch behind it,
it is implied (log 2); a mismatch in it cuts it, and its run goes on when the line has stayed active since (R16). -/
def ownMark (received : List LineLevel) (mismatch : Option Nat) (s : State) : State :=
  match mismatch, s.line.receive with
  | some n, .betweenFrames =>
    if 8 ≤ n then impliedMark s
    else s.setLine { s.line with markCut := (received.drop n).all (· == .active) }
  | _, _ => s

/-- COLLISION (R31): the levels received since the attempt's first bit time, compared with those driven (R16). -/
def collision (received : List LineLevel) (s : State) : State :=
  let m := echoMismatch s 0 received
  collideAt m (ownMark received m s)

/-- COLLISION (R31). -/
def execCollision (s : State) (received : List LineLevel := []) : Result := .next (whenRunning s (collision received))

/-- The kind of frame that an item sends (12.3). -/
def ItemKind.frameKind : ItemKind → FrameKind
  | .claim => .claim
  | .presence _ => .presence
  | .epoch => .epoch
  | .recallItem _ => .recallFrame
  | .update _ => .update

/-- The subject of TRANSMIT_ABANDONED (R33). -/
def abandonedSubject (s : State) (kind : ItemKind) : Nat :=
  match kind with
  | .claim | .presence _ => (ownNumber s).val
  | .epoch => (s.epoch.latched.getD 0).toNat
  | .recallItem topic => topic.toNat
  | .update i => i.val

/-- What the item's owner does with an abandonment (R33, R45, R54, R128, R148, R159). -/
def ownerAbandoned (kind : ItemKind) (s : State) : Posting :=
  match kind with
  | .claim => if s.session.state = .claiming then refuse .claimFailed s else (s, [])
  | .presence _ => (s, [])
  | .epoch => epochAbandoned s
  | .recallItem topic => recallAbandoned s topic
  | .update i => (updateAbandoned s i, [])

/-- The item is abandoned (R33): the notice, the removal, then the owner. -/
def abandon (kind : ItemKind) (s : State) : Posting :=
  let p : Posting := (removeItem s kind, [.transmitAbandoned kind.frameKind (abandonedSubject s kind)])
  p.andThen (ownerAbandoned kind)

/-- What the item's owner does with a collision that is not the sixteenth (R32, R54, R128, R148, R159): in LEAVING the
item is removed. -/
def ownerCollided (kind : ItemKind) (s : State) : State :=
  let s1 := if s.session.state = .leaving then removeItem s kind else s
  match kind with
  | .claim | .presence _ | .recallItem _ => s1
  | .epoch => epochCollided s1
  | .update i => updateCollided s1 i

/-- After the end of an attempt in LEAVING the leave completes (R54). -/
def finishLeaving (s : State) : Posting := if s.session.state = .leaving then leaveComplete s else (s, [])

/-- The Line Interface when the jam has been sent (R15): LDE is deasserted, and a start mark cut by the collision is past.
Outside a frame the next gap is counted from here (R5); where the line is active beyond the jam, it is counted from the end
of that activity. -/
def LineInterface.afterJam (l : LineInterface) : LineInterface :=
  { l with send := .off, markCut := false, gap := if l.receive.awaitsGap && l.level == .idle then some 0 else none }

/-- The jam of the attempt of `f` has been sent, and the attempt ends as a collision (R32). -/
def jamEnd (f : Flight) (s : State) : State :=
  let s1 := s.setLine s.line.afterJam
  let s2 := s1.setAccess { s1.access with inFlight := none }
  let p : Posting := if 16 ≤ attemptsOf s f.kind then abandon f.kind s2 else (ownerCollided f.kind s2, [])
  settleBooking (p.andThen finishLeaving).done

/-- JAM_END (R15, R32): the jam of an attempt has been sent, whatever is being received. -/
def execJamEnd (s : State) : Result :=
  .next (whenRunning s fun s =>
    match s.line.send, s.access.inFlight with
    | .jamming _, some f => jamEnd f s
    | _, _ => s)

/-! ## Blocked line (R7, R35) -/

/-- The blocked-line event (R35): score + 8, LINE_BLOCKED, the booking dropped, the standing re-evaluated. -/
def blockedLine (m : BlockedMeasure) (s : State) : State :=
  let s1 := s.setLine { s.line with blocked := some { m with reported := true } }
  let s2 := s1.setAccess { s1.access with booking := none }
  let p : Posting := (s2, [.lineBlocked])
  (p.andThen fun s => raiseScore s 8).done

/-- BLOCKED_LINE_EVENT (R7): the measure runs and has not been reported. -/
def execBlockedLineEvent (s : State) : Result :=
  .next (whenRunning s fun s =>
    match s.line.blocked with
    | some m => if m.reported then s else blockedLine m s
    | none => s)

end Sys2Proof.Machine
end

