-- ==== Sys2Proof/Machine/FrameEnd.lean ====
section
/-! DEFINITION. The two events of a received frame (1.8): HEADER_COMPLETE and FRAME_END, and what every block does at the
frame end. -/

namespace Sys2Proof.Machine

/-! ## The frame in reception -/

/-- The frame in reception, with the state in which it is received: outside a frame, in BETWEEN_FRAMES, the start mark
that must have come before is implied (log 2); in INACTIVE and SEEKING there is none (R18). -/
def openedFrame (s : State) : Option (Reception × State) :=
  match s.line.receive with
  | .inFrame r => some (r, s)
  | .betweenFrames =>
    let s1 := impliedMark s
    match s1.line.receive with
    | .inFrame r => some (r, s1)
    | .inactive | .seeking | .betweenFrames => none
  | .inactive | .seeking => none

/-- The first mismatch of an own frame (R16) in the levels since its last event; its start mark took 8 bit times. -/
def frameMismatch (s : State) (r : Reception) (levels : List LineLevel) : Option Nat :=
  if r.own then echoMismatch s (8 + r.heard) levels else none

/-! ## Header complete (R13) -/

/-- The header-complete event: it is noted, and the matching walk is made (R68). -/
def headerEvent (s : State) (r : Reception) (rx : Receiver) : State :=
  matchingWalk (s.setLine { s.line with receive := .inFrame { r with headerSeen := true, rx := rx } }) (headerOf r.own rx)

/-- The header-complete event after the levels given, when the sixth byte of a valid UPDATE arrives with the last of
them; a mismatch in them is a collision (R16); without either nothing happens (log 1). -/
def headerComplete (levels : List LineLevel) (s : State) : State :=
  match openedFrame s with
  | some (r, s1) =>
    let rx := r.rx.feed levels
    let m := frameMismatch s1 r levels
    let s2 := collideAt m s1
    if headerArrived rx && !r.headerSeen then headerEvent s2 { r with heard := r.heard + levels.length } rx
    else if m.isSome then s2 else s
  | none => s

/-- HEADER_COMPLETE (R13). -/
def execHeaderComplete (levels : List LineLevel) (s : State) : Result := .next (whenRunning s (headerComplete levels))

/-- The receiver at the instant the header completes within the levels given. -/
def Receiver.headerWithin (r : Receiver) : List LineLevel → Option Receiver
  | [] => none
  | l :: ls => if headerArrived (r.bit l) then some (r.bit l) else (r.bit l).headerWithin ls

/-- The header-complete event of a frame whose header arrives within the levels of its frame end is implied (log 2). -/
def impliedHeader (levels : List LineLevel) (s : State) (r : Reception) : State × Bool :=
  if r.headerSeen then (s, true)
  else
    match r.rx.headerWithin levels with
    | some rx => (headerEvent s r rx, true)
    | none => (s, false)

/-! ## Frame end (R14) -/

/-- Whether a frame has ended as the echo of the attempt under way does (R16): by idle, with the characters sent. -/
def endsAsSent (s : State) (rx : Receiver) : Bool :=
  rx.phase == .endedIdle && !rx.missingStop && rx.chars == sentBytes s

/-- The mismatch that a frame end shows (R16): the first in its levels; and where an own frame ends otherwise than as it
was sent with no difference up to the last stop bit, one after it (log 27). -/
def endMismatch (s : State) (r : Reception) (levels : List LineLevel) : Option Nat :=
  match frameMismatch s r levels with
  | some n => some n
  | none =>
    if r.own && comparing s && (r.rx.feed levels).ended && !endsAsSent s (r.rx.feed levels) then
      some (frameLevels (sentBytes s)).length
    else none

/-- The outcome of the frame `r` (R12). An own frame after a collision is never CLEAN: it is BROKEN (R16, log 27). -/
def outcomeOf (s : State) (r : Reception) (rx : Receiver) : FrameOutcome :=
  match judge rx with
  | .clean f => if r.own && !comparing s then .broken else .clean f
  | .broken => .broken
  | .malformed => .malformed
  | .checkFailed => .checkFailed

/-- The owner of the item told of the clean end (R30, R127, R148). The Session Controller and the Epoch Unit handle theirs
with the frame end. -/
def ownerClean (f : Flight) (s : State) : State :=
  match f.kind with
  | .recallItem topic => recallSent s topic
  | .update i => updateSent s i f.latchedRepeat
  | .claim | .presence _ | .epoch => s

/-- The clean end of the item in flight (R30). -/
def cleanEnd (s : State) : State :=
  match s.access.inFlight with
  | some f =>
    let s1 := removeItem s f.kind
    let s2 := s1.setAccess { s1.access with inFlight := none }
    ownerClean f (s2.setLine { s2.line with send := .off })
  | none => s

/-- The rotation base of the frame's class (R21). -/
def setBase (s : State) (c : FrameClass) (x : Station) : State :=
  s.setAccess { s.access with bases := upd s.access.bases c fun _ => x }

/-- The Access Controller at the end of a CLEAN frame (R21, R30, R34). -/
def accessAtFrame (own : Bool) (f : Frame) (s : State) : Posting :=
  let s1 := setBase s f.cls f.source
  if own then lowerScore (cleanEnd s1) 2
  else if s1.access.standing = .quiet then lowerScore s1 1
  else (s1, [])

/-- Every block acts on a CLEAN frame end (R14), in the order of the blocks of chapter 00 (log 16). -/
def cleanFrame (own headerSeen : Bool) (f : Frame) (s : State) : State :=
  actTogether
    [accessAtFrame own f, sessionAtFrame own f, rosterAtFrame own f, acceptanceAtFrame own headerSeen f,
     publicationAtFrame own f, continuityAtFrame own f, epochAtFrame own f] s

/-- The Acceptance Unit at the end of a frame that is not CLEAN (R81, R82, R84). -/
def dropFrame (headerSeen : Bool) (s : State) : State := if headerSeen then releaseFrame s else s

/-- What the blocks do with the outcome (R14, R22, R34, R81). -/
def actOnOutcome (own headerSeen : Bool) (o : FrameOutcome) (s : State) : State :=
  match o with
  | .broken => dropFrame headerSeen (resetBases s)
  | .malformed | .checkFailed => (raiseScore (dropFrame headerSeen s) 1).done
  | .clean f => cleanFrame own headerSeen f s

/-- Back between frames (R4), with the idle seen counted towards the gap (R5). At a jam the line is still active, and the
gap is counted when the end of that activity is seen. -/
def closeReception (s : State) (rx : Receiver) : State :=
  s.setLine { s.line with
    receive := .betweenFrames,
    level := if rx.phase = .endedIdle then .idle else .active,
    gap := if rx.phase = .endedIdle then some (rx.idleRun * lineBit s) else none }

/-- The leave that an own clean end completes in LEAVING (R54). After a collision the leave waits for the end of the
attempt. -/
def leaveAfterFrame (own : Bool) (o : FrameOutcome) (s : State) : State :=
  match own, o with
  | true, .clean _ => (finishLeaving s).done
  | _, _ => s

/-- The frame in reception `r` ends with the receiver at `rx` (R12, R14). -/
def endFrame (levels : List LineLevel) (r : Reception) (rx : Receiver) (s : State) : State :=
  let p := impliedHeader levels s r
  let o := outcomeOf s r rx
  settleBooking (leaveAfterFrame r.own o (actOnOutcome r.own p.2 o (closeReception p.1 rx)))

/-- The frame end after the levels given, when the frame has ended with them; a mismatch that they show is a collision
(R16); without either nothing happens (log 1). -/
def frameEnd (levels : List LineLevel) (s : State) : State :=
  match openedFrame s with
  | some (r, s1) =>
    let rx := r.rx.feed levels
    let m := endMismatch s1 r levels
    let s2 := collideAt m s1
    if rx.ended then endFrame levels r rx s2
    else if m.isSome then s2 else s
  | none => s

/-- FRAME_END (R14). -/
def execFrameEnd (levels : List LineLevel) (s : State) : Result := .next (whenRunning s (frameEnd levels))

end Sys2Proof.Machine
end

