-- ==== Sys2Proof/Machine/Port.lean ====
section
/-! DEFINITION. The Host Port (chapter 10): transactions, the output pins, STATUS, SET_ATTENTION_MASK, READ_NOTICE and the unknown command. -/

namespace Sys2Proof.Machine

/-! ## Transactions -/

/-- What SEL's fall captures (R170, R176). -/
def captureStatus (s : State) : Captured :=
  { status := statusByte s, showsNotTaken := s.port.lastNotTaken, showsMalformed := s.port.lastMalformed,
    answer := match s.port.state with | .responseWaiting r => some r | .ready | .executing _ _ => none }

/-- What SEL low holds after a fall in this state: in reset the transaction will be ignored whole (R186, R192). -/
def fallenSelect (s : State) : SelectPin := if s.held then .ignored else .low (captureStatus s)

/-- TRANSACTION_BEGIN (R170): SEL falls. With SEL already low nothing happens (log 1). -/
def execTransactionBegin (s : State) : Result :=
  .next (match s.port.sel with
    | .high => s.setPort { s.port with sel := fallenSelect s }
    | .low _ | .ignored => s)

/-- The transaction that ends now: as captured at SEL's fall, which is implied when SEL is still high (log 2). -/
def openedTransaction (s : State) : SelectPin :=
  match s.port.sel with
  | .high => fallenSelect s
  | .low c => .low c
  | .ignored => .ignored

/-- The port after its transaction flags have been shown: the flags that the status byte carried are cleared (R170). -/
def HostPort.shown (p : HostPort) (c : Captured) : HostPort :=
  { p with
    lastNotTaken := p.lastNotTaken && !c.showsNotTaken, notTakenSince := p.notTakenSince && !c.showsNotTaken,
    lastMalformed := p.lastMalformed && !c.showsMalformed, malformedSince := p.malformedSince && !c.showsMalformed }

/-- SEL rises on a transaction that the port ignores (R169, R186): nothing but the pin changes. When SEL is still low after
a reset has ended, the spec does not say what SDO carries until SEL rises; the model has it driven (12.9) and leaves
`sdo` as it stands: the model's choice (log 26). -/
def ignoreTransaction (s : State) : State := s.setPort { s.port with sel := .high }

/-- SEL rises on a transaction of at least a whole byte: `out` was shifted out, and the status byte has been shown. -/
def showStatus (s : State) (c : Captured) (out : List Byte) : State :=
  s.setPort { s.port.shown c with sel := .high, sdo := out }

/-- The bytes a fetch of `whole` bytes shifts out (R175, R176, R189). The spec gives the bytes behind the no-response answer no
value; that they are 0, as the filler behind a response is, is the model's choice (log 28). -/
def fetchOut (c : Captured) (whole : Nat) : List Byte :=
  (c.status :: answerBytes c.answer ++ List.replicate whole 0).take whole

/-- Whether a fetch of `whole` bytes has clocked the whole response (R175). -/
def clockedWhole (c : Captured) (whole : Nat) : Bool :=
  match c.answer with
  | some r => decide (3 + r.data.length ≤ whole)
  | none => false

/-- SEL rises on a fetch of `whole` bytes (R175, R176). -/
def fetchEnd (whole : Nat) (c : Captured) (s : State) : State :=
  let s1 := showStatus s c (fetchOut c whole)
  if clockedWhole c whole then s1.setPort { s1.port with state := .ready } else s1

/-- Whether a command transaction is well formed (R172). -/
def wellFormedTransaction (bytes : List Byte) (trailing : Nat) : Bool :=
  trailing == 0 && decide (2 ≤ bytes.length) && bytes.length == 2 + (bytes.getD 1 0).toNat

/-- SEL rises on a command transaction (R172, R173): the code is the first byte, the arguments follow the length byte. -/
def commandEnd (bytes : List Byte) (trailing : Nat) (c : Captured) (s : State) : State :=
  let s1 := showStatus s c (c.status :: List.replicate (bytes.length - 1) 0)
  if wellFormedTransaction bytes trailing then
    match s1.port.state with
    | .ready =>
      s1.setPort { s1.port with
        state := .executing (bytes.getD 0 0) (bytes.drop 2), notTakenSince := false, malformedSince := false }
    | .executing _ _ | .responseWaiting _ => s1.setPort { s1.port with lastNotTaken := true, notTakenSince := true }
  else s1.setPort { s1.port with lastMalformed := true, malformedSince := true }

/-- SEL rises (R169): `act` is what the end of the transaction does, unless the port ignores it. -/
def transactionEnd (s : State) (act : Captured → State → State) : State :=
  match openedTransaction s with
  | .low c => act c s
  | .high | .ignored => ignoreTransaction s

/-- COMMAND_TRANSACTION (R173): with a first byte of 0x00 the transaction is a fetch (R169). -/
def execCommandTransaction (bytes : List Byte) (trailing : Nat) (s : State) : Result :=
  .next (match bytes with
    | [] => ignoreTransaction s
    | b :: _ =>
      if b = 0 then transactionEnd s (fetchEnd bytes.length) else transactionEnd s (commandEnd bytes trailing))

/-- FETCH_TRANSACTION (R175): trailing bits are ignored (R169). -/
def execFetchTransaction (whole : Nat) (s : State) : Result :=
  .next (if whole = 0 then ignoreTransaction s else transactionEnd s (fetchEnd whole))

/-- SHORT_TRANSACTION (R169): fewer than eight clocks are ignored. -/
def execShortTransaction (s : State) : Result := .next (ignoreTransaction s)

/-! ## Pins -/

/-- LTX (R15, R192): idle with the driver off and in reset, active throughout a jam, and in a frame the level of the bit
time that the time left points to. -/
def ltx (s : State) : LineLevel :=
  match s.line.send with
  | .off => .idle
  | .jamming _ => .active
  | .sending left =>
    let levels := frameLevels (sentBytes s)
    levels.getD (levels.length - (left + lineBit s - 1) / lineBit s) .idle

/-- Whether SDO is driven (12.9): not while SEL is high, and not in reset. -/
def sdoDriven (s : State) : Bool :=
  !s.held && (match s.port.sel with | .high => false | .low _ | .ignored => true)

/-! ## Commands -/

/-- STATUS (R178). -/
def statusBody (args : List Byte) (s : State) : State × Response :=
  match args with
  | [] => (s, okData (statusBytes s))
  | _ => refuseWith s .badArgument

/-- SET ATTENTION MASK (R183): bits 10 to 15 must be 0 (12.3). -/
def setAttentionMaskBody (args : List Byte) (s : State) : State × Response :=
  match args with
  | [hi, lo] =>
    if (word16 hi lo).toNat < 1024 then (s.setPort { s.port with mask := (word16 hi lo).setWidth 10 }, plain .ok)
    else refuseWith s .badArgument
  | _ => refuseWith s .badArgument

/-- READ NOTICE (R181). -/
def readNoticeBody (args : List Byte) (s : State) : State × Response :=
  match args with
  | [] =>
    match s.port.notices with
    | [] => refuseWith s .empty
    | n :: rest =>
      (s.setPort { s.port with notices := rest, lost := s.port.lost && !rest.isEmpty },
       okData (n.bytes ++ [byteOf rest.length]))
  | _ => refuseWith s .badArgument

/-- STATUS (R178, R174). -/
def execStatus (args : List Byte) (s : State) : Result := .next (takeCommand s 0x04 args (statusBody args))

/-- SET_ATTENTION_MASK (R183, R174). -/
def execSetAttentionMask (args : List Byte) (s : State) : Result :=
  .next (takeCommand s 0x06 args (setAttentionMaskBody args))

/-- READ_NOTICE (R181, R174). -/
def execReadNotice (args : List Byte) (s : State) : Result := .next (takeCommand s 0x07 args (readNoticeBody args))

/-- UNKNOWN_COMMAND (R191): a code that names no command is answered UNKNOWN_COMMAND, whatever its arguments. -/
def execUnknownCommand (code : Byte) (args : List Byte) (s : State) : Result :=
  .next (if isUnknownCode code then takeCommand s code args fun s => refuseWith s .unknownCommand else s)

end Sys2Proof.Machine
end

