-- ==== Sys2Proof/Machine/Reset.lean ====
section
/-! DEFINITION. The resets: POWER_ON, RESET_PIN, RESET_END (R186, R192) and SOFT_RESET (R187). -/

namespace Sys2Proof.Machine

/-- SEL across a reset: a transaction under way is ignored until SEL rises (R186, R192). -/
def SelectPin.acrossReset (p : SelectPin) : SelectPin :=
  match p with
  | .high => .high
  | .low _ | .ignored => .ignored

/-- Every block at its initial values (R186), with the queue, the free choices and the SEL pin as they stand; `hold` says
what still holds the part in reset. -/
def hardReset (hold : ResetHold) (s : State) : State :=
  let r : State := { State.reset with pending := s.pending, free := s.free, hold := hold }
  r.setPort { r.port with sel := s.port.sel.acrossReset }

/-- POWER_ON (R186, R192): the internal hold of power-on holds the part in reset. -/
def execPowerOn (s : State) : Result := .next (hardReset { s.hold with power := true, left := none } s)

/-- What holds the part once a low level of RESET has been taken (R192): the pin while it stays low, and 50 microseconds
counted from its rise. A new low stops the count under way. -/
def ResetHold.atPin (h : ResetHold) (rises : Bool) : ResetHold :=
  if rises then { h with pinLow := false, left := some 50 } else { h with pinLow := true, left := none }

/-- RESET_PIN (R192): a low level of at least 1 microsecond, 16 periods of CLKIN, puts the part into reset; a shorter one
is ignored, unless it goes on with a low already taken. -/
def execResetPin (lowPeriods : Nat) (s : State) (rises : Bool := true) : Result :=
  .next (if 16 ≤ lowPeriods ∨ s.hold.pinLow = true then hardReset (s.hold.atPin rises) s else s)

/-- What holds the part once the power-on hold has ended (R192): 50 microseconds are counted from there, anew where they
were being counted already; while RESET is low the pin holds the part, and they are counted from its rise. -/
def ResetHold.afterPower (h : ResetHold) : ResetHold :=
  { h with power := false, left := if h.pinLow then none else some 50 }

/-- Whether the reset under way ends (R192): neither the power-on hold nor RESET holds the part, and the 50 microseconds
are over. -/
def ResetHold.canEnd (h : ResetHold) : Bool := !h.power && !h.pinLow && h.left == some 0

/-- RESET_END (R192): the end of the power-on hold, which comes from outside (log 19), or else the end of the reset. -/
def execResetEnd (s : State) : Result :=
  .next (if s.hold.power then { s with hold := s.hold.afterPower }
    else if s.hold.canEnd then hardReset ResetHold.over s else s)

/-- Whether the port executes a command: its two since-flags then count from that command's SEL rise (R187). -/
def PortState.isExecuting (p : PortState) : Bool :=
  match p with
  | .executing _ _ => true
  | .ready | .responseWaiting _ => false

/-- The Host Port after SOFT RESET, less the response (R185, R187). -/
def HostPort.softReset (p : HostPort) : HostPort :=
  { HostPort.initial with
    lastNotTaken := p.notTakenSince && p.state.isExecuting,
    lastMalformed := p.malformedSince && p.state.isExecuting,
    notTakenSince := p.notTakenSince && p.state.isExecuting,
    malformedSince := p.malformedSince && p.state.isExecuting,
    sel := p.sel, sdo := p.sdo }

/-- SOFT RESET (R187): every block at its reset values, the record kept, unfrozen. -/
def softResetBody (args : List Byte) (s : State) : State × Response :=
  match args with
  | [] =>
    ({ State.reset with
        pending := s.pending, free := s.free,
        session := { SessionController.initial with record := s.session.record },
        port := s.port.softReset },
     plain .ok)
  | _ => refuseWith s .badArgument

/-- SOFT_RESET (R187, R174). -/
def execSoftReset (args : List Byte) (s : State) : Result := .next (takeCommand s 0x05 args (softResetBody args))

end Sys2Proof.Machine
end

