-- ==== Sys2Proof/Machine/Dispatch.lean ====
section
/-! DEFINITION. The meaning of each command, one arm a constructor. -/

namespace Sys2Proof.Machine

/-- The effect of a command on everything but the queue. -/
def exec (i : Instr) (s : State) : Host.Outcome State Fault Refusal :=
  match i with
  | .powerOn => Sys2Proof.Machine.execPowerOn s
  | .resetPin lowPeriods rises => Sys2Proof.Machine.execResetPin lowPeriods s rises
  | .resetEnd => Sys2Proof.Machine.execResetEnd s
  | .lineActivity activeRun idleAfter => Sys2Proof.Machine.execLineActivity activeRun idleAfter s
  | .gapEnd => Sys2Proof.Machine.execGapEnd s
  | .slotCycleStart => Sys2Proof.Machine.execSlotCycleStart s
  | .bookedSlotStart => Sys2Proof.Machine.execBookedSlotStart s
  | .sendEnd => Sys2Proof.Machine.execSendEnd s
  | .collision received => Sys2Proof.Machine.execCollision s received
  | .jamEnd => Sys2Proof.Machine.execJamEnd s
  | .blockedLineEvent => Sys2Proof.Machine.execBlockedLineEvent s
  | .headerComplete levels => Sys2Proof.Machine.execHeaderComplete levels s
  | .frameEnd levels => Sys2Proof.Machine.execFrameEnd levels s
  | .listenWindowExpiry => Sys2Proof.Machine.execListenWindowExpiry s
  | .presenceTimerExpiry => Sys2Proof.Machine.execPresenceTimerExpiry s
  | .silenceDeadlineExpiry peer => Sys2Proof.Machine.execSilenceDeadlineExpiry peer s
  | .freshnessDeadlineExpiry slot => Sys2Proof.Machine.execFreshnessDeadlineExpiry slot s
  | .periodicTimerExpiry index => Sys2Proof.Machine.execPeriodicTimerExpiry index s
  | .holdOffExpiry index => Sys2Proof.Machine.execHoldOffExpiry index s
  | .recallDeadlineExpiry position => Sys2Proof.Machine.execRecallDeadlineExpiry position s
  | .commandTransaction bytes trailingBits => Sys2Proof.Machine.execCommandTransaction bytes trailingBits s
  | .fetchTransaction wholeBytes _ => Sys2Proof.Machine.execFetchTransaction wholeBytes s
  | .shortTransaction _ => Sys2Proof.Machine.execShortTransaction s
  | .configure args => Sys2Proof.Machine.execConfigure args s
  | .join args => Sys2Proof.Machine.execJoin args s
  | .leave args => Sys2Proof.Machine.execLeave args s
  | .status args => Sys2Proof.Machine.execStatus args s
  | .softReset args => Sys2Proof.Machine.execSoftReset args s
  | .setAttentionMask args => Sys2Proof.Machine.execSetAttentionMask args s
  | .readNotice args => Sys2Proof.Machine.execReadNotice args s
  | .readRoster args => Sys2Proof.Machine.execReadRoster args s
  | .subscribe args => Sys2Proof.Machine.execSubscribe args s
  | .unsubscribe args => Sys2Proof.Machine.execUnsubscribe args s
  | .readSubscription args => Sys2Proof.Machine.execReadSubscription args s
  | .pop args => Sys2Proof.Machine.execPop args s
  | .peek args => Sys2Proof.Machine.execPeek args s
  | .flush args => Sys2Proof.Machine.execFlush args s
  | .queueStatus args => Sys2Proof.Machine.execQueueStatus args s
  | .readSlot args => Sys2Proof.Machine.execReadSlot args s
  | .listChangedSlots args => Sys2Proof.Machine.execListChangedSlots args s
  | .declare args => Sys2Proof.Machine.execDeclare args s
  | .writeValue args => Sys2Proof.Machine.execWriteValue args s
  | .withdraw args => Sys2Proof.Machine.execWithdraw args s
  | .readPublication args => Sys2Proof.Machine.execReadPublication args s
  | .recallCmd args => Sys2Proof.Machine.execRecall args s
  | .epoch args => Sys2Proof.Machine.execEpoch args s
  | .snapshotOpen args => Sys2Proof.Machine.execSnapshotOpen args s
  | .snapshotRead args => Sys2Proof.Machine.execSnapshotRead args s
  | .snapshotRelease args => Sys2Proof.Machine.execSnapshotRelease args s
  | .unknownCommand code args => Sys2Proof.Machine.execUnknownCommand code args s
  | .transactionBegin => Sys2Proof.Machine.execTransactionBegin s

end Sys2Proof.Machine
end

