-- ==== Sys2Proof/Machine/Time.lean ====
section
/-! DEFINITION. The passing of time with no command waiting (log 4): what falls due is put in the queue, and with nothing
due one microsecond passes. -/

namespace Sys2Proof.Machine

/-! ## One microsecond -/

/-- A timer or deadline one microsecond later. -/
def Timer.tick (t : Timer) : Timer := t.map (· - 1)

/-- Line time is kept in half microseconds. -/
def halfTick (t : Option Nat) : Option Nat := t.map (· + 2)

/-- The send side one microsecond later. -/
def SendCondition.tick (c : SendCondition) : SendCondition :=
  match c with
  | .off => .off
  | .sending n => .sending (n - 2)
  | .jamming n => .jamming (n - 2)

/-- The Line Interface one microsecond later (R5, R7, R17): the gap is counted while the line is idle. -/
def LineInterface.tick (l : LineInterface) : LineInterface :=
  { l with
    clock := l.clock + 1, send := l.send.tick,
    gap := if l.isIdle then halfTick l.gap else l.gap,
    blocked := l.blocked.map fun m => { m with elapsed := m.elapsed + 2 } }

/-- The station one microsecond later: the clock and every timer that runs. -/
def tick (s : State) : State :=
  { s with
    line := s.line.tick,
    access := { s.access with slotTime := halfTick s.access.slotTime },
    session := { s.session with
      listenWindow := s.session.listenWindow.tick, presenceTimer := s.session.presenceTimer.tick },
    roster := tabMap (fun e => { e with deadline := e.deadline.tick }) s.roster,
    store := { s.store with slots := tabMap (fun k => { k with deadline := k.deadline.tick }) s.store.slots },
    pubs := { s.pubs with
      table := tabMap (fun e => { e with periodicTimer := e.periodicTimer.tick, holdOff := e.holdOff.tick }) s.pubs.table },
    cont := { s.cont with recalls := tabMap (fun e => { e with deadline := e.deadline.tick }) s.cont.recalls } }

/-! ## What is due -/

/-- A command, if a condition holds. -/
def dueIf (b : Bool) (c : Instr) : List Instr := if b then [c] else []

/-- Whether a timer has run out. -/
def Timer.isOver (t : Timer) : Bool := t == some 0

/-- The events of the line that are due: the end of a signal being sent, the gap end, the booked slot, the end of the slot
cycle, the blocked-line event. -/
def dueOnLine (s : State) : List Instr :=
  dueIf (s.line.send == .sending 0) .sendEnd
  ++ dueIf (s.line.send == .jamming 0 && s.access.inFlight.isSome) .jamEnd
  ++ dueIf (gapCanEnd s && s.line.gap.any fun g => decide (12 * lineBit s ≤ g)) .gapEnd
  ++ dueIf (slotCanBegin s && s.access.booking.any fun b => decide (slotStart s b ≤ s.access.slotTime.getD 0))
      .bookedSlotStart
  ++ dueIf (s.access.slotTime.any fun e => decide (2048 * lineBit s ≤ e)) .slotCycleStart
  ++ dueIf (s.line.blocked.any fun m => !m.reported && decide (1024 * lineBit s < m.elapsed)) .blockedLineEvent

/-- The timers of the session, the peers and the slots that have run out. -/
def dueTimers (s : State) : List Instr :=
  dueIf (s.session.state == .listening && s.session.listenWindow.isOver) .listenWindowExpiry
  ++ dueIf s.session.presenceTimer.isOver .presenceTimerExpiry
  ++ ((List.finRange 32).filter fun x => s.roster[x].state == .present && s.roster[x].deadline.isOver).map
      .silenceDeadlineExpiry
  ++ ((List.finRange 64).filter fun k => s.store.slots[k].state == .fresh && s.store.slots[k].deadline.isOver).map
      .freshnessDeadlineExpiry

/-- The timers of the publications and the recalls that have run out. -/
def dueRequests (s : State) : List Instr :=
  ((List.finRange 32).filter fun i => s.pubs.table[i].periodicTimer.isOver).map .periodicTimerExpiry
  ++ ((List.finRange 32).filter fun i => s.pubs.table[i].holdOff.isOver).map .holdOffExpiry
  ++ ((List.finRange 8).filter fun p => s.cont.recalls[p].waits && s.cont.recalls[p].deadline.isOver).map
      .recallDeadlineExpiry

/-- The end of a reset whose 50 microseconds are over (R192); a power-on hold ends from outside (log 19). -/
def dueReset (s : State) : List Instr := dueIf s.hold.canEnd .resetEnd

/-- The command in the port, which its owner takes (R174). -/
def dueCommand (s : State) : List Instr :=
  match s.port.state with
  | .executing code args => [commandOf code args]
  | .ready | .responseWaiting _ => []

/-- Everything that is due now; in reset only its end. -/
def due (s : State) : List Instr :=
  if s.held then dueReset s else dueOnLine s ++ dueTimers s ++ dueRequests s ++ dueCommand s

/-- One microsecond of a part held in reset: only the 50 microseconds of R192 are counted. -/
def holdTick (s : State) : State := { s with hold := { s.hold with left := s.hold.left.tick } }

/-- The block with no command waiting (log 4): one of the events that are due is put in the queue, a freely chosen one
(log 5), so that an event which that one makes undone is not taken; with nothing due, one microsecond passes. -/
def idle (s : State) : State :=
  match due s with
  | [] => if s.held then holdTick s else tick s
  | c :: cs =>
    { s with pending := [(c :: cs).getD (Config.dueOrder s.free % (cs.length + 1)) c], free := s.free + 1 }

end Sys2Proof.Machine
end

