-- ==== Sys2Proof/Machine/Step.lean ====
section
/-! DEFINITION. One step of the block: the command at the front of its queue, or idling. -/

namespace Sys2Proof.Machine

/-- The state with another queue. -/
def State.setPending (s : State) (q : List Instr) : State := { s with pending := q }

/-- The command at the front of the queue is taken and carried out on the state with the queue's rest; with an empty queue
the block idles (log 4). -/
def step (s : State) : Host.Outcome State Fault Refusal :=
  match s.pending with
  | c :: rest => exec c (s.setPending rest)
  | [] => .next (idle s)

/-- The command that the word spells put at the front of the queue; the state as it is where it spells none (log 18). -/
def State.withFetchWord (s : State) (nbits w : Nat) : State :=
  match decodeTableWord nbits w with
  | some c => s.setPending (c :: s.pending)
  | none => s

end Sys2Proof.Machine
end

