-- ==== Sys2Proof/Safety.lean ====
section
/-! DEFINITION. What the spec says holds at every instant: the invariants and the relations that the statements about steps are made of. -/

namespace Sys2Proof.Machine

/-- R34, R36: the score's range, and what each standing implies of it. -/
def AccessController.scoreFits (a : AccessController) : Prop :=
  a.score ≤ 255 ∧
  (a.standing = .normal → a.score < 96) ∧
  (a.standing = .caution → 96 ≤ a.score ∧ a.score ≤ 159) ∧
  (a.standing = .quiet → 64 < a.score)

/-- R179, R180: the notice queue holds at most 32 records, and the lost flag is set only while one is queued. -/
def HostPort.noticesFit (p : HostPort) : Prop :=
  p.notices.length ≤ 32 ∧ (p.lost = true → p.notices ≠ [])

/-- R140, R145: the tracker holds at most 48 entries, and never two with the same source and topic. -/
def ContinuityUnit.trackerFits (c : ContinuityUnit) : Prop :=
  c.tracker.length ≤ 48 ∧ c.tracker.Pairwise fun a b => ¬(a.source = b.source ∧ a.topic = b.topic)

/-- R145: no two recall list entries that are not FREE have the same topic, and a FREE one has its initial values. -/
def ContinuityUnit.recallsFit (c : ContinuityUnit) : Prop :=
  (∀ p q : RecallPos, c.recalls[p].state ≠ .free → c.recalls[q].state ≠ .free →
    c.recalls[p].topic = c.recalls[q].topic → p = q) ∧
  ∀ p : RecallPos, c.recalls[p].state = .free → c.recalls[p] = RecallEntry.initial

/-- R155, R156: at most one bank is HELD, an EMPTY bank has its initial values, and the latest-capture mark names a bank
that is not EMPTY; with no mark both banks are EMPTY. -/
def EpochUnit.banksFit (u : EpochUnit) : Prop :=
  ¬(u.banks[0].state = .held ∧ u.banks[1].state = .held) ∧
  (∀ b : Fin 2, u.banks[b].state = .empty → u.banks[b] = Bank.initial) ∧
  (∀ b : Fin 2, u.latest = some b → u.banks[b].state ≠ .empty) ∧
  (u.latest = none → ∀ b : Fin 2, u.banks[b].state = .empty)

/-- R103, R104: an EMPTY slot has the initial contents; a stale reason stands exactly in a STALE slot; a deadline runs
exactly in a FRESH slot with a limit above 0. -/
def Slot.fits (k : Slot) : Prop :=
  (k.state = .empty → k.contents = Contents.initial ∧ k.changed = false) ∧
  (k.reason.isSome = true ↔ k.state = .stale) ∧
  (k.deadline.isSome = true ↔ k.state = .fresh ∧ 0 < k.limit)

/-- R103, R104, for every slot. -/
def MessageStore.slotsFit (m : MessageStore) : Prop := ∀ k : SlotNo, m.slots[k].fits

/-- R118: no two publication entries that are not FREE have the same topic. -/
def PublicationUnit.topicsDiffer (p : PublicationUnit) : Prop :=
  ∀ i j : PubIndex, p.table[i].state ≠ .free → p.table[j].state ≠ .free → p.table[i].topic = p.table[j].topic → i = j

/-- R133: the items stand in ascending class, and within a class in the order of their placement; the next placement is
later than all of them. -/
def PublicationUnit.ordered (p : PublicationUnit) : Prop :=
  (p.items.Pairwise fun a b => a.cls < b.cls ∨ (a.cls = b.cls ∧ a.placed < b.placed)) ∧
  ∀ it ∈ p.items, it.placed < p.placements

/-- R42, R43, R49: the record is in range and, outside OFFLINE, present and frozen; the listen window runs exactly in
LISTENING and the presence timer exactly in MEMBER. -/
def SessionController.fits (c : SessionController) : Prop :=
  (∀ r, c.record = some r → r.inRange = true) ∧
  (c.state ≠ .offline → c.record.isSome = true) ∧
  (c.frozen = true ↔ c.state ≠ .offline) ∧
  (c.listenWindow.isSome = true ↔ c.state = .listening) ∧
  (c.presenceTimer.isSome = true ↔ c.state = .member)

/-- R1, R18, R55: in OFFLINE the Line Interface is inactive, nothing received, nothing driven, no rate, no measure, and no
item is in flight. -/
def quietOffline (s : State) : Prop :=
  s.session.state = .offline → s.line = { LineInterface.initial with clock := s.line.clock } ∧ s.access.inFlight = none

/-- R56: in OFFLINE every roster entry is ABSENT; in every other state the entry of the station's own number is SELF and no
other entry is. -/
def rosterFits (s : State) : Prop :=
  (s.session.state = .offline → ∀ n : Station, s.roster[n] = RosterEntry.absentEntry) ∧
  (s.session.state ≠ .offline → ∀ n : Station, s.roster[n].state = .selfEntry ↔ n = ownNumber s)

/-- The cells of queue `q`: its records and its reservation. -/
def ReceiveQueue.cells (x : ReceiveQueue) : Nat := x.records.length + x.reserved.toNat

/-- The cells of all queues (R86). -/
def MessageStore.cellsUsed (m : MessageStore) : Nat := ((List.finRange 8).map fun q => m.queues[q].cells).sum

/-- A header-complete event has been seen of the frame in reception. -/
def headerSeen (s : State) : Prop := ∃ r, s.line.receive = .inFrame r ∧ r.headerSeen = true

/-- R70, R72, R82: the reservation list names no target twice and exactly the queues that hold a reservation, and it is
empty unless a header is complete. -/
def planFits (s : State) : Prop :=
  (s.accept.plan.targets.Pairwise fun a b => a.target ≠ b.target) ∧
  (∀ q : QueueNo, s.store.queues[q].reserved = true ↔ ∃ r ∈ s.accept.plan.targets, r.target = .queue q) ∧
  (s.accept.plan ≠ Plan.empty → headerSeen s)

/-- R86, R87: free cells and used cells number 128, and no queue uses more than its quota. -/
def poolFits (s : State) : Prop :=
  s.store.free + s.store.cellsUsed = 128 ∧ ∀ q : QueueNo, s.store.queues[q].cells ≤ quotaOf s q

/-- The items that may stand in the list only once in place of each other: a PRESENCE, normal or defence, is one kind. -/
def ItemKind.place (k : ItemKind) : ItemKind :=
  match k with
  | .presence _ => .presence false
  | .claim | .epoch | .recallItem _ | .update _ => k

/-- The UPDATE of publication `i` is the item in flight. -/
def flies (s : State) (i : PubIndex) : Prop := ∃ f, s.access.inFlight = some f ∧ f.kind = .update i

/-- R134 and what it rests on: at most one item a publication and a kind; a listed publication has its item and is ACTIVE,
or WITHDRAWING in its flight; a listed RECALL, EPOCH and CLAIM have their WAITING entry, their request and their station
state; an entry marked in flight is in flight, the frame in flight is of its item's kind, and none flies in OFFLINE. -/
def itemsFit (s : State) : Prop :=
  (s.pubs.items.Pairwise fun a b => a.kind.place ≠ b.kind.place) ∧
  (∀ it ∈ s.pubs.items, ∀ i, it.kind = .update i → (s.pubs.table[i]).item ≠ none ∧
    ((s.pubs.table[i]).state = .active ∨ ((s.pubs.table[i]).state = .withdrawing ∧ flies s i))) ∧
  (∀ it ∈ s.pubs.items, ∀ topic, it.kind = .recallItem topic →
    ∃ p : RecallPos, (s.cont.recalls[p]).state = .waiting ∧ (s.cont.recalls[p]).topic = topic) ∧
  (∀ it ∈ s.pubs.items, it.kind = .epoch → s.epoch.request ≠ .none) ∧
  (∀ it ∈ s.pubs.items, it.kind = .claim → s.session.state = .claiming ∨ s.session.state = .leaving) ∧
  (∀ i : PubIndex, (s.pubs.table[i]).inFlight = true → flies s i) ∧
  (∀ f, s.access.inFlight = some f → ∃ fr, f.covered = encodeFrame fr ∧ fr.body.kind = f.kind.frameKind) ∧
  (s.session.state = .offline → s.access.inFlight = none)

/-! ## The words of the statements -/

/-- The port executes exactly this command, outside reset, so that its owner takes it next (R174). -/
def Executes (s : State) (code : Byte) (args : List Byte) : Prop := s.held = false ∧ s.port.state = .executing code args

/-- The state with the response placed and nothing else changed (R174). -/
def answered (s : State) (r : Response) : State := { s with port := { s.port with state := .responseWaiting r } }

/-- The rows that are the taking of a host command by its owner (R174, R191). -/
def takesCommand (c : Instr) : Prop :=
  (∃ code args, c = commandOf code args) ∨ ∃ code args, c = .unknownCommand code args

/-- The table of R36, row by row: standing before, new score, standing after. -/
def standingRow (before : Standing) (score : Nat) (after : Standing) : Prop :=
  (before ≠ .quiet → 160 ≤ score → after = .quiet) ∧
  (before ≠ .quiet → 96 ≤ score → score ≤ 159 → after = .caution) ∧
  (before ≠ .quiet → score < 96 → after = .normal) ∧
  (before = .quiet → 65 ≤ score → after = .quiet) ∧
  (before = .quiet → score ≤ 64 → after = .normal)

/-- The notice of a change of standing (R36). -/
def standingNotices (before after : Standing) : List Notice := if after = before then [] else [.standingChanged after]

/-- A frame that a station can send: its class allowed for its kind, and at most 32 payload bytes (R8, R9). -/
def Frame.sendable (f : Frame) : Prop :=
  classAllowed f.body.code f.cls.val = true ∧
  match f.body with
  | .update _ _ _ _ payload => payload.length ≤ 32
  | .recallFor _ | .epoch _ | .presence .. | .claim _ => True

/-- The line levels of a whole frame after its start mark, up to its end by idle (R2, R4). -/
def wholeFrame (bs : List Byte) : List LineLevel := charactersLevels bs ++ [.idle, .idle, .idle]

/-- A frame whose start mark has just been accepted, foreign or own (R3, R16). -/
def justOpened (own : Bool) : ReceiveCondition :=
  .inFrame { own := own, headerSeen := false, heard := 0, rx := Receiver.start }

/-- A foreign frame in reception ends CLEAN as `f` with the levels given (R14). -/
def ForeignEnd (s : State) (levels : List LineLevel) (r : Reception) (f : Frame) : Prop :=
  s.held = false ∧ s.line.receive = .inFrame r ∧ r.own = false ∧ (r.rx.feed levels).ended = true ∧
  judge (r.rx.feed levels) = .clean f

/-- The echo of the frame `fr` of the item in flight `f` has been opened, and no collision has been called (R16, R28). -/
def OwnEcho (s : State) (f : Flight) (fr : Frame) : Prop :=
  s.held = false ∧ s.line.receive = justOpened true ∧ s.line.send.isJamming = false ∧ s.access.inFlight = some f ∧
  f.covered = encodeFrame fr ∧ fr.sendable ∧ fr.body.kind = f.kind.frameKind ∧ fr.source = ownNumber s

/-- The echo of the frame `f` of the item in flight ends CLEAN in MEMBER with the levels given: as it was sent, with no mismatch
(R16, R30). -/
def OwnEnd (s : State) (levels : List LineLevel) (r : Reception) (f : Frame) : Prop :=
  s.held = false ∧ s.line.receive = .inFrame r ∧ r.own = true ∧ s.session.state = .member ∧
  s.line.send.isJamming = false ∧ (∃ x, s.access.inFlight = some x ∧ x.covered = encodeFrame f) ∧
  echoMismatch s (8 + r.heard) levels = none ∧ (r.rx.feed levels).phase = .endedIdle ∧
  (r.rx.feed levels).missingStop = false ∧ (r.rx.feed levels).chars = withCheck (encodeFrame f) ∧
  judge (r.rx.feed levels) = .clean f

/-- The notice stands in the queue of `t`, stamped with the clock of `s`, if the queue of `s` was empty. -/
def notified (s t : State) (n : Notice) : Prop :=
  s.port.notices = [] → { notice := n, stamp := s.line.clock } ∈ t.port.notices

/-- No such notice stands in the queue of `t`, if the queue of `s` was empty. -/
def unnotified (s t : State) (n : Notice → Prop) : Prop := s.port.notices = [] → ∀ r ∈ t.port.notices, ¬n r.notice

/-- The number of cells reserved in all queues (R89). -/
def MessageStore.reservedCells (m : MessageStore) : Nat := ((List.finRange 8).filter fun q => m.queues[q].reserved).length

/-- The number of the own slot of class `d` in the slot cycle (R20). -/
def ownSlotNumber (s : State) (d : FrameClass) : Nat :=
  d.val * 32 + ((ownNumber s).val + 63 - (s.access.bases[d]).val) % 32

/-- The late booking for a head of class `c`, `elapsed` half microseconds into the cycle (R25): the own slot of the first class
from `c` on that has not yet begun, a slot being 8 bit times (R19); none when all of them have begun. -/
def LateBooked (s : State) (elapsed : Nat) (c : FrameClass) (booking : Option (Fin 256)) : Prop :=
  (∀ b, booking = some b → ∃ d : FrameClass, c ≤ d ∧ b.val = ownSlotNumber s d ∧
    elapsed < ownSlotNumber s d * (8 * lineBit s) ∧
    ∀ d' : FrameClass, c ≤ d' → d' < d → ownSlotNumber s d' * (8 * lineBit s) ≤ elapsed) ∧
  (booking = none → ∀ d : FrameClass, c ≤ d → ownSlotNumber s d * (8 * lineBit s) ≤ elapsed)

/-- What an event that changes the list, the station state or the standing does to the booking: without permission none stands
(R27). With it a booking stays as it is, and while slots are counted, with none and no attempt under way, a head is booked
late (R25). -/
def SettledBooking (s t : State) : Prop :=
  (permission t = false → t.access.booking = none) ∧
  (permission t = true →
    (s.access.booking ≠ none ∨ s.access.inFlight ≠ none ∨ s.access.slotTime = none ∨ t.pubs.items = [] →
      t.access.booking = s.access.booking) ∧
    ∀ e it rest, s.access.booking = none → s.access.inFlight = none → s.access.slotTime = some e →
      t.pubs.items = it :: rest → LateBooked t e it.cls t.access.booking)

/-- The state with the attempt under way ended, and nothing else changed (R30, R32). -/
def landed (s : State) : State := { s with access := { s.access with inFlight := none } }

/-- The state in which the booking is settled at the end of the frame `r`: an own clean end is the end of its attempt (R30). -/
def afterFrame (s : State) (r : Reception) : State := if r.own = true then landed s else s

/-- What is due while the part runs (log 4): each event of the line and of a timer on its condition, with the times of the line
in half microseconds (log 22), and the command in the port (R174). -/
def IsDue (s : State) (c : Instr) : Prop :=
  match c with
  | .sendEnd => s.line.send = .sending 0
  | .jamEnd => s.line.send = .jamming 0 ∧ s.access.inFlight ≠ none
  | .gapEnd =>
    (s.line.receive = .seeking ∨ s.line.receive = .betweenFrames) ∧ s.line.level = .idle ∧ s.line.send = .off ∧
    s.access.inFlight = none ∧ s.access.slotTime = none ∧ ∃ g, s.line.gap = some g ∧ 12 * lineBit s ≤ g
  | .bookedSlotStart =>
    s.line.receive = .betweenFrames ∧ s.line.send = .off ∧ s.access.inFlight = none ∧
    ∃ b e, s.access.booking = some b ∧ s.access.slotTime = some e ∧ b.val * (8 * lineBit s) ≤ e
  | .slotCycleStart => ∃ e, s.access.slotTime = some e ∧ 2048 * lineBit s ≤ e
  | .blockedLineEvent => ∃ m, s.line.blocked = some m ∧ m.reported = false ∧ 1024 * lineBit s < m.elapsed
  | .listenWindowExpiry => s.session.state = .listening ∧ s.session.listenWindow = some 0
  | .presenceTimerExpiry => s.session.presenceTimer = some 0
  | .silenceDeadlineExpiry x => s.roster[x].state = .present ∧ s.roster[x].deadline = some 0
  | .freshnessDeadlineExpiry k => s.store.slots[k].state = .fresh ∧ s.store.slots[k].deadline = some 0
  | .periodicTimerExpiry i => s.pubs.table[i].periodicTimer = some 0
  | .holdOffExpiry i => s.pubs.table[i].holdOff = some 0
  | .recallDeadlineExpiry p =>
    (s.cont.recalls[p].state = .sent ∨ s.cont.recalls[p].state = .suppressed) ∧ s.cont.recalls[p].deadline = some 0
  | c => ∃ code args, s.port.state = .executing code args ∧ c = commandOf code args

/-- The topics of the recall requests when the slots `ks` go stale, slot by slot and for each in ascending entry index: those
of the ACTIVE entries with RECALL that target the slot (R110). -/
def staleTopics (s : State) (ks : List SlotNo) : List Topic :=
  ks.flatMap fun k => ((List.finRange 32).filter fun i =>
    decide ((s.accept.table[i]).state = .active ∧ (s.accept.table[i]).recallOption = true ∧
      (s.accept.table[i]).target = .slot k)).map fun i => (s.accept.table[i]).value

/-- A publication entry that is not FREE holds the topic (R146). -/
def publishes (s : State) (topic : Topic) : Prop :=
  ∃ j : PubIndex, (s.pubs.table[j]).state ≠ .free ∧ (s.pubs.table[j]).topic = topic

/-- What automatic requests for `topics`, in this order and of one origin, change (R147): nothing unless the station is MEMBER
and NORMAL. Each new recall takes the lowest FREE position, with its item, for a requested topic that is not an own one and
has no entry yet; a requested topic goes without only where the list is full with the requests before it. -/
def Recalled (s t : State) (topics : List Topic) (origin : RecallOrigin) : Prop :=
  (s.session.state ≠ .member ∨ s.access.standing ≠ .normal ∨ topics = [] → t.cont = s.cont ∧ t.pubs = s.pubs) ∧
  t.cont.tracker = s.cont.tracker ∧ t.pubs.table = s.pubs.table ∧
  (s.pubs.items.Sublist t.pubs.items ∧ s.pubs.placements ≤ t.pubs.placements) ∧
  (∀ p : RecallPos, (s.cont.recalls[p]).state ≠ .free ∨ (t.cont.recalls[p]).state = .free →
    t.cont.recalls[p] = s.cont.recalls[p]) ∧
  (∀ p : RecallPos, (s.cont.recalls[p]).state = .free → (t.cont.recalls[p]).state ≠ .free →
    t.cont.recalls[p] =
      { state := .waiting, topic := (t.cont.recalls[p]).topic, origin := origin, expiries := 0, deadline := none } ∧
    (t.cont.recalls[p]).topic ∈ topics ∧ ¬publishes s (t.cont.recalls[p]).topic ∧
    (∀ q : RecallPos, (s.cont.recalls[q]).state ≠ .free →
      (s.cont.recalls[q]).topic ≠ (t.cont.recalls[p]).topic) ∧
    (∀ q : RecallPos, q < p → (s.cont.recalls[q]).state = .free → (t.cont.recalls[q]).state ≠ .free ∧
      topics.idxOf (t.cont.recalls[q]).topic < topics.idxOf (t.cont.recalls[p]).topic) ∧
    ∃ it ∈ t.pubs.items, it.kind = .recallItem (t.cont.recalls[p]).topic ∧ it.cls = 1 ∧ it.attempts = 0 ∧
      s.pubs.placements ≤ it.placed) ∧
  (s.session.state = .member → s.access.standing = .normal → ∀ topic ∈ topics, ¬publishes s topic →
    (∃ p : RecallPos, (t.cont.recalls[p]).state ≠ .free ∧ (t.cont.recalls[p]).topic = topic) ∨
    ∀ p : RecallPos, (t.cont.recalls[p]).state ≠ .free ∧ ((s.cont.recalls[p]).state = .free →
      topics.idxOf (t.cont.recalls[p]).topic < topics.idxOf topic))

/-- The unit tag that a frame carries (12.1). -/
def FrameBody.tag : FrameBody → Option UnitTag
  | .presence _ _ _ tag _ => some tag
  | .claim tag => some tag
  | .update .. | .recallFor _ | .epoch _ => none

/-- The notice record of 12.8: the kind, three subjects, and the stamp. -/
def noticeRecord (kind : Byte) (subject1 subject2 subject3 : Nat) (stamp : Stamp) : List Byte :=
  kind :: (bytes16 subject1 ++ bytes16 subject2 ++ bytes16 subject3 ++ bytes32 stamp.toNat)

/-- What a collision of the item in flight `f` changes (R31): a jam of 24 bit times, all bases 31, 8 added to the score with
the standing of R36 and its notice, one more attempt of the item; with the permission goes the booking (R27). -/
def Collided (s t : State) (f : Flight) : Prop :=
  t.line.send = .jamming (24 * lineBit s) ∧ (∀ c : FrameClass, t.access.bases[c] = 31) ∧
  t.access.score = min 255 (s.access.score + 8) ∧ standingRow s.access.standing t.access.score t.access.standing ∧
  t.port = (postAll s (standingNotices s.access.standing t.access.standing)).port ∧ t.access.inFlight = some f ∧
  (permission t = false → t.access.booking = none) ∧
  t.pubs = { s.pubs with
    items := s.pubs.items.map fun it => if it.kind = f.kind then { it with attempts := it.attempts + 1 } else it }

/-- What a refusal changes (R51): REFUSED with both timers stopped, no booking, an empty transmit list, every publication kept
without item, marks, timer and hold-off, no recall and no request left, and the notices of each. -/
def Refused (s t : State) (reason : RefusalReason) : Prop :=
  t.session = { s.session with state := .refused, listenWindow := none, presenceTimer := none } ∧
  t.access.booking = none ∧ t.pubs.items = [] ∧
  (∀ i : PubIndex, t.pubs.table[i] = { s.pubs.table[i] with
    item := none, writtenSinceLatch := false, rePend := false, periodicTimer := none, holdOff := none }) ∧
  (∀ p : RecallPos, t.cont.recalls[p] = RecallEntry.initial) ∧ t.epoch.request = .none ∧ t.epoch.latched = none ∧
  notified s t (.sessionRefused reason) ∧
  (∀ p : RecallPos, (s.cont.recalls[p]).state ≠ .free → (s.cont.recalls[p]).origin = .host →
    notified s t (.recallDone (s.cont.recalls[p]).topic .cancelled)) ∧
  (s.epoch.request ≠ .none → notified s t (.epochDone .cancelled))

/-- The transmit list of `t` holds a defence as R48 has it: one that stood there stays, another PRESENCE is turned into one
with its attempt count, and with no PRESENCE in the list a new one is placed. -/
def Defended (s t : State) : Prop :=
  ((∀ it ∈ s.pubs.items, it.isPresence = false) →
    ∃ it ∈ t.pubs.items, it.kind = .presence true ∧ it.cls = 0 ∧ it.attempts = 0) ∧
  (∀ old ∈ s.pubs.items, old.kind = .presence true → (∀ it ∈ s.pubs.items, it.kind ≠ .presence false) →
    old ∈ t.pubs.items) ∧
  (∀ old ∈ s.pubs.items, old.kind = .presence false → (∀ it ∈ s.pubs.items, it.isPresence = true → it = old) →
    (∃ it ∈ t.pubs.items, it.kind = .presence true ∧ it.cls = 0 ∧ it.attempts = old.attempts ∧
      it.placed = s.pubs.placements) ∧
    ∀ it ∈ t.pubs.items, it.kind ≠ .presence false)

/-- Leave completion (R55): OFFLINE with the record kept and unfrozen, the line inactive, nothing engaged or WITHDRAWING, the
roster, tracker and recall list empty, no request, an empty transmit list, every publication without item, marks, timer
and hold-off, the Access Controller at its initial values, no FRESH slot, and LEFT as the last notice. -/
def LeftTheLine (s t : State) : Prop :=
  t.session = { s.session with frozen := false, state := .offline, listenWindow := none, presenceTimer := none } ∧
  t.line = { LineInterface.initial with clock := s.line.clock } ∧ t.access = AccessController.initial ∧
  t.accept.plan = Plan.empty ∧
  (∀ i : SubIndex, t.accept.table[i] =
    if (s.accept.table[i]).state = .withdrawing then SubEntry.initial else { s.accept.table[i] with engaged := false }) ∧
  (planFits s → ∀ q : QueueNo, (t.store.queues[q]).reserved = false) ∧
  (∀ n : Station, t.roster[n] = RosterEntry.absentEntry) ∧
  t.cont.tracker = [] ∧ (∀ p : RecallPos, t.cont.recalls[p] = RecallEntry.initial) ∧
  t.epoch.request = .none ∧ t.epoch.latched = none ∧ t.epoch.lastSeen = none ∧ t.pubs.items = [] ∧
  (∀ i : PubIndex, (t.pubs.table[i]).item = none ∧ (t.pubs.table[i]).inFlight = false ∧
    (t.pubs.table[i]).writtenSinceLatch = false ∧ (t.pubs.table[i]).rePend = false ∧
    (t.pubs.table[i]).periodicTimer = none ∧ (t.pubs.table[i]).holdOff = none) ∧
  (∀ k : SlotNo, (t.store.slots[k]).state ≠ .fresh) ∧
  (s.port.notices = [] → t.port.notices.getLast? = some { notice := .left, stamp := s.line.clock })

end Sys2Proof.Machine
end

