-- ==== Sys2Proof/Certificates/Slice0/Obligations.lean ====
section
/-! DEFINITION. The statements for the provers. -/

open Sys2Proof Sys2Proof.Machine

/-! ## The step -/

/-- With a command at the front of the queue, a step is that command on the state with the queue's rest. The queue is the
model's choice (log 18, log 4), not the spec's. -/
def Obligations.StepRunsTheFrontCommand : Prop :=
  ∀ (c : Instr) (rest : List Instr) (s : State), s.pending = c :: rest → step s = exec c (s.setPending rest)

/-- The model's choice (log 4): with an empty queue and nothing due, a step is one microsecond (R17), in which the clock and
the blocked-line measure count on, the timers and deadlines run down, and the slot time and the signal driven go on, in half
microseconds; the idle of a gap is counted while the line is idle and not while it is active (R5). With something due, the
step puts one due event in the queue, a freely chosen one (log 5), and nothing else changes. What is due stands in `IsDue`:
the gap end after 12 idle bit times (R5), the booked slot at its start and the cycle end after 2048 bit times (R19), the
blocked-line event past 1024 bit times (R7), the end of a signal and of a timer, and the command that the port is executing
(R174), by the codes of 12.5. -/
def Obligations.IdleStepIsOneMicrosecond : Prop :=
  (∀ s : State, s.pending = [] → s.held = false →
    (due s = [] → step s = .next (tick s)) ∧
    (due s ≠ [] → ∃ c ∈ due s, step s = .next { s with pending := [c], free := s.free + 1 }) ∧
    ∀ c : Instr, c ∈ due s ↔ IsDue s c) ∧
  (∀ s : State,
    tick s = { s with
      line := (tick s).line, access := { s.access with slotTime := s.access.slotTime.map (· + 2) },
      session := { s.session with
        listenWindow := s.session.listenWindow.map (· - 1), presenceTimer := s.session.presenceTimer.map (· - 1) },
      roster := (tick s).roster, store := { s.store with slots := (tick s).store.slots },
      pubs := { s.pubs with table := (tick s).pubs.table }, cont := { s.cont with recalls := (tick s).cont.recalls } } ∧
    (tick s).line = { s.line with
      clock := s.line.clock + 1, send := (tick s).line.send, gap := (tick s).line.gap,
      blocked := s.line.blocked.map fun m => { m with elapsed := m.elapsed + 2 } } ∧
    (s.line.send = .off → (tick s).line.send = .off) ∧
    (∀ n, s.line.send = .sending n → (tick s).line.send = .sending (n - 2)) ∧
    (∀ n, s.line.send = .jamming n → (tick s).line.send = .jamming (n - 2)) ∧
    (s.line.level = .idle → s.line.send = .off → (tick s).line.gap = s.line.gap.map (· + 2)) ∧
    (s.line.level = .active ∨ s.line.send ≠ .off → (tick s).line.gap = s.line.gap) ∧
    (∀ x : Station, (tick s).roster[x] = { s.roster[x] with deadline := (s.roster[x]).deadline.map (· - 1) }) ∧
    (∀ k : SlotNo, (tick s).store.slots[k] =
      { s.store.slots[k] with deadline := (s.store.slots[k]).deadline.map (· - 1) }) ∧
    (∀ i : PubIndex, (tick s).pubs.table[i] = { s.pubs.table[i] with
      periodicTimer := (s.pubs.table[i]).periodicTimer.map (· - 1), holdOff := (s.pubs.table[i]).holdOff.map (· - 1) }) ∧
    ∀ p : RecallPos, (tick s).cont.recalls[p] =
      { s.cont.recalls[p] with deadline := (s.cont.recalls[p]).deadline.map (· - 1) }) ∧
  ∀ args : List Byte,
    ([0x01, 0x02, 0x03, 0x04, 0x05, 0x06, 0x07, 0x10, 0x20, 0x21, 0x22, 0x30, 0x31, 0x32, 0x33, 0x40, 0x41, 0x50, 0x51, 0x52,
        0x53, 0x60, 0x70, 0x71, 0x72, 0x73] : List Byte).map (fun code => commandOf code args) =
      [.configure args, .join args, .leave args, .status args, .softReset args, .setAttentionMask args, .readNotice args,
        .readRoster args, .subscribe args, .unsubscribe args, .readSubscription args, .pop args, .peek args, .flush args,
        .queueStatus args, .readSlot args, .listChangedSlots args, .declare args, .writeValue args, .withdraw args,
        .readPublication args, .recallCmd args, .epoch args, .snapshotOpen args, .snapshotRead args,
        .snapshotRelease args] ∧
    ∀ code : Byte, isUnknownCode code = true → commandOf code args = .unknownCommand code args

/-- Every command is answered with a next state, and leaves the queue to the step. That an event which cannot happen is
answered so is the model's choice (log 1), and so is the queue (log 18). -/
def Obligations.EveryCommandLeavesTheQueue : Prop :=
  ∀ (c : Instr) (s : State), ∃ t, exec c s = .next t ∧ t.pending = s.pending

/-! ## Resets (R186, R187, R192) -/

/-- RESET_END, when nothing holds the part and the 50 microseconds are over: the part holds the initial values of every
chapter (R186, R192). The end of the power-on hold starts the 50 microseconds, or leaves them to the rise of RESET while
it is low. While RESET is low or the 50 microseconds run, the reset does not end; an idle step counts them, and then
RESET_END is due. That the end of the power-on hold and the end of the count come as commands is the model's choice (log
19, log 4). -/
def Obligations.ResetEndGivesInitialValues : Prop :=
  ∀ s : State,
    (s.hold.power = false → s.hold.pinLow = false → s.hold.left = some 0 →
      ∃ t, exec .resetEnd s = .next t ∧ t.held = false ∧ t.hold = ResetHold.over ∧
      t.session.record = none ∧ t.session.state = .offline ∧ t.session.frozen = false ∧
      t.session.listenWindow = none ∧ t.session.presenceTimer = none ∧
      t.line.clock = 0 ∧ t.line.receive = .inactive ∧ t.line.send = .off ∧ t.line.rate = none ∧ t.line.blocked = none ∧
      t.line.gap = none ∧
      (∀ c : FrameClass, t.access.bases[c] = 31) ∧ t.access.slotTime = none ∧ t.access.booking = none ∧
      t.access.inFlight = none ∧ t.access.score = 0 ∧ t.access.standing = .normal ∧
      (∀ n : Station, t.roster[n] = RosterEntry.absentEntry) ∧
      (∀ i : SubIndex, t.accept.table[i] = SubEntry.initial) ∧ t.accept.plan = Plan.empty ∧
      t.store.free = 128 ∧ (∀ q : QueueNo, t.store.queues[q] = ReceiveQueue.initial) ∧
      (∀ k : SlotNo, t.store.slots[k] = Slot.initial) ∧
      (∀ i : PubIndex, t.pubs.table[i] = PubEntry.initial) ∧ t.pubs.items = [] ∧
      t.cont.tracker = [] ∧ (∀ p : RecallPos, t.cont.recalls[p] = RecallEntry.initial) ∧
      t.epoch.lastSeen = none ∧ t.epoch.request = .none ∧ t.epoch.latched = none ∧ t.epoch.latest = none ∧
      (∀ b : Fin 2, t.epoch.banks[b] = Bank.initial) ∧
      t.port.state = .ready ∧ t.port.notices = [] ∧ t.port.lost = false ∧ t.port.mask = 0 ∧
      t.port.lastNotTaken = false ∧ t.port.lastMalformed = false ∧ attn t = false ∧ statusByte t = 0x81) ∧
    (s.hold.power = true →
      exec .resetEnd s = .next { s with hold :=
        { power := false, pinLow := s.hold.pinLow, left := if s.hold.pinLow = true then none else some 50 } }) ∧
    (s.hold.power = false → s.hold.pinLow = true ∨ (∃ n, s.hold.left = some (n + 1)) → exec .resetEnd s = .next s) ∧
    (s.pending = [] → s.hold.pinLow = false → s.hold.power = false →
      (∀ n, s.hold.left = some (n + 1) → step s = .next { s with hold := { s.hold with left := some n } }) ∧
      (s.hold.left = some 0 → step s = .next { s with pending := [.resetEnd], free := s.free + 1 }))

/-- POWER_ON and a RESET low of at least 1 microsecond (16 periods of CLKIN) hold the part in reset, with LDE low, LTX idle,
SDO not driven, ATTN released and any frame cut off; a shorter low is ignored. From the rise of RESET 50 microseconds
are counted, anew after each low (R186, R192). That the transmit list and the notice queue are empty already while the
part is held is the model's reading (log 8), and the operands of RESET_PIN are its choice (log 19). -/
def Obligations.ResetPinAndPowerOnHoldThePart : Prop :=
  ∀ s : State,
    (∃ t, exec .powerOn s = .next t ∧ t.held = true ∧ lde t = false ∧ attn t = false ∧ t.access.inFlight = none ∧
      t.line.receive = .inactive ∧ t.pubs.items = [] ∧ t.port.notices = [] ∧ ltx t = .idle ∧ sdoDriven t = false ∧
      t.hold.power = true ∧ t.hold.pinLow = s.hold.pinLow) ∧
    (∀ n rises, 16 ≤ n ∨ s.hold.pinLow = true → ∃ t, exec (.resetPin n rises) s = .next t ∧ t.held = true ∧
      lde t = false ∧ attn t = false ∧ t.access.inFlight = none ∧ t.line.receive = .inactive ∧ t.pubs.items = [] ∧
      t.port.notices = [] ∧ ltx t = .idle ∧ sdoDriven t = false ∧ t.hold.power = s.hold.power ∧
      (rises = true → t.hold.pinLow = false ∧ t.hold.left = some 50) ∧
      (rises = false → t.hold.pinLow = true ∧ t.hold.left = none)) ∧
    (∀ n rises, n < 16 → s.hold.pinLow = false → exec (.resetPin n rises) s = .next s)

/-- SOFT_RESET: every block at its reset values, the record kept and unfrozen, the two transaction flags kept only as far
as they were set since the command's SEL rise, and the response OK (R187). -/
def Obligations.SoftResetKeepsTheRecord : Prop :=
  ∀ s : State, Executes s 0x05 [] →
    exec (.softReset []) s = .next
      { State.reset with
        pending := s.pending, free := s.free,
        session := { SessionController.initial with record := s.session.record },
        port := { HostPort.initial with
          state := .responseWaiting ⟨.ok, []⟩,
          lastNotTaken := s.port.notTakenSince, lastMalformed := s.port.malformedSince,
          notTakenSince := s.port.notTakenSince, malformedSince := s.port.malformedSince,
          sel := s.port.sel, sdo := s.port.sdo } }

/-! ## The line (chapters 1 and 2) -/

/-- LINE_ACTIVITY outside a frame: the slot count ends, an unused booking is dropped, the gap is counted anew from the idle
that followed, and not while the line is active, the blocked-line measure runs (R5, R7, R19, R27); a start mark in
BETWEEN_FRAMES opens a frame (R3), also while the station drives its jam, and anything else does not; in an attempt a
mismatch with the start mark that is driven is a collision, and inside its 8 bit times it opens no frame, then or when the
end of the same run is reported; what an activity reports is compared from the bit time behind the runs that activities
before it in the attempt have reported to their end (R16, R31). The frame carries the own marker in an attempt, and not in the jam (R16). That
the own marker stands for an attempt under way is the model's reading (log 14), and so is the gap counted from the idle
reported (log 23). -/
def Obligations.LineActivityEndsTheSlotCount : Prop :=
  ∀ (s : State) (run idle : Nat), s.held = false → s.line.receive = .seeking ∨ s.line.receive = .betweenFrames → 0 < run →
    (echoMismatch s s.line.markHeard (activityLevels run idle) = none →
      ∃ t, exec (.lineActivity run idle) s = .next t ∧
        t = { s with line := t.line, access := { s.access with slotTime := none, booking := none } } ∧
        t.line.blocked.isSome = true ∧ (s.line.blocked.isSome = true → t.line.blocked = s.line.blocked) ∧
        t.line.send = s.line.send ∧ t.line.clock = s.line.clock ∧ t.line.rate = s.line.rate ∧
        t.line.level = (if idle = 0 then .active else .idle) ∧
        t.line.markCut = (decide (idle = 0) && s.line.markCut) ∧
        (s.access.inFlight ≠ none → s.line.send.isJamming = false → idle ≠ 0 →
          t.line.markHeard = s.line.markHeard + run + idle) ∧
        (s.access.inFlight = none ∨ s.line.send.isJamming = true ∨ idle = 0 → t.line.markHeard = s.line.markHeard) ∧
        (5 ≤ run → run ≤ 7 → 2 ≤ idle → s.line.receive = .betweenFrames → s.line.markCut = false →
          (s.access.inFlight = none ∨ s.line.send.isJamming = true → t.line.receive = justOpened false) ∧
          (s.access.inFlight ≠ none → s.line.send.isJamming = false → t.line.receive = justOpened true) ∧
          t.line.gap = none) ∧
        (run < 5 ∨ 7 < run ∨ idle < 2 ∨ s.line.receive = .seeking ∨ s.line.markCut = true →
          t.line.receive = s.line.receive ∧ t.line.gap = if idle = 0 then none else some (idle * lineBit s))) ∧
    (∀ n f, echoMismatch s s.line.markHeard (activityLevels run idle) = some n → s.access.inFlight = some f →
      ∃ t, exec (.lineActivity run idle) s = .next t ∧
        t = { s with line := t.line, access := t.access, pubs := t.pubs, port := t.port } ∧ Collided s t f ∧
        t.access.slotTime = none ∧ t.access.booking = none ∧ t.line.blocked.isSome = true ∧
        (n < 8 → t.line.receive = s.line.receive ∧ t.line.markCut = decide (idle = 0)))

/-- GAP_END and SLOT_CYCLE_START: slots are counted from here, and with permission and a head the own slot of the head's
class is booked: slot c × 32 + (x − base[c] − 1) mod 32 (R5, R19, R20, R24). Permission is a station state that sends
and a standing that is not QUIET (R23), and the bit times are those of R1, counted in half microseconds (log 22). That no
gap ends while the line, as last reported, is active is the model's reading of R5 (log 23). -/
def Obligations.GapEndAndCycleStartBookTheHead : Prop :=
  (∀ s : State,
    (permission s = true ↔ s.access.standing ≠ .quiet ∧ (s.session.state = .member ∨
      (s.session.state = .claiming ∧ ∃ it rest, s.pubs.items = it :: rest ∧ it.kind = .claim))) ∧
    (s.line.rate = some .kbit250 → lineBit s = 8) ∧ (s.line.rate = some .kbit500 → lineBit s = 4) ∧
    (s.line.rate = some .mbit1 → lineBit s = 2) ∧ (s.line.rate = some .mbit2 → lineBit s = 1)) ∧
  ∀ s : State, s.held = false →
    (s.access.booking = none →
      (s.line.receive = .seeking ∨ s.line.receive = .betweenFrames → s.line.level = .idle → s.line.send = .off →
        s.access.inFlight = none → s.access.slotTime = none →
        ∃ t, exec .gapEnd s = .next t ∧
          t = { s with
            line := { s.line with receive := .betweenFrames, gap := none, blocked := none },
            access := { s.access with slotTime := some 0, booking := t.access.booking } } ∧
          (∀ it rest, s.pubs.items = it :: rest → permission s = true →
            ∃ b, t.access.booking = some b ∧
              b.val = it.cls.val * 32 + ((ownNumber s).val + 63 - (s.access.bases[it.cls]).val) % 32) ∧
          (s.pubs.items = [] ∨ permission s = false → t.access.booking = none)) ∧
      (s.access.slotTime.isSome = true →
        ∃ t, exec .slotCycleStart s = .next t ∧
          t = { s with access := { s.access with slotTime := some 0, booking := t.access.booking } } ∧
          (∀ it rest, s.pubs.items = it :: rest → permission s = true →
            ∃ b, t.access.booking = some b ∧
              b.val = it.cls.val * 32 + ((ownNumber s).val + 63 - (s.access.bases[it.cls]).val) % 32) ∧
          (s.pubs.items = [] ∨ permission s = false → t.access.booking = none))) ∧
    (s.line.level = .active → exec .gapEnd s = .next s)

/-- BOOKED_SLOT_START: with permission and a head an attempt starts for it, its frame latched and LDE asserted; with an
empty list the booking lapses (R15, R26, R28, R29). The frame latched is the one of its owner's chapter (R45, R50, R125,
R148, R158). -/
def Obligations.BookedSlotStartsTheHead : Prop :=
  (∀ (s : State) (b : Fin 256) (e : Nat), s.held = false → s.access.booking = some b → s.access.slotTime = some e →
    s.line.receive = .betweenFrames → s.line.send = .off → s.access.inFlight = none →
    (∀ it rest, s.pubs.items = it :: rest → permission s = true →
      ∃ t, exec .bookedSlotStart s = .next t ∧ lde t = true ∧
        t = { s with line := t.line, access := t.access, pubs := t.pubs, epoch := t.epoch } ∧
        t.access = { s.access with
          slotTime := none, booking := none,
          inFlight := some { kind := it.kind, latchedRepeat := latchesRepeat s it.kind,
                             covered := encodeFrame (latchedFrame s it.kind) } } ∧
        t.line.receive = s.line.receive ∧ t.line.clock = s.line.clock ∧ t.line.markHeard = 0 ∧
        t.line.send = .sending
          ((8 + 10 * ((encodeFrame (latchedFrame s it.kind)).length + 2)) * lineBit s) ∧
        t.pubs.items = s.pubs.items ∧
        (∀ i, it.kind = .update i → (t.pubs.table[i]).inFlight = true ∧ (t.pubs.table[i]).writtenSinceLatch = false) ∧
        (it.kind = .epoch → t.epoch.request = .inFlight ∧ t.epoch.latched = some s.epoch.nextNumber)) ∧
    (s.pubs.items = [] ∨ permission s = false →
      ∃ e', exec .bookedSlotStart s = .next { s with access := { s.access with booking := none, slotTime := some e' } })) ∧
  ∀ (s : State) (r : Record), s.session.record = some r →
    latchedFrame s .claim = { cls := 7, source := r.station, body := .claim r.unitTag } ∧
    (∀ defence, latchedFrame s (.presence defence) =
      { cls := if defence then 0 else 7, source := r.station,
        body := .presence (decide (s.access.standing = .caution)) defence (decide (s.epoch.lastSeen = none)) r.unitTag
          (s.epoch.lastSeen.getD 0) }) ∧
    (s.epoch.lastSeen = none → latchedFrame s .epoch = { cls := 0, source := r.station, body := .epoch 0 }) ∧
    (∀ e, s.epoch.lastSeen = some e → latchedFrame s .epoch = { cls := 0, source := r.station, body := .epoch (e + 1) }) ∧
    (∀ topic, latchedFrame s (.recallItem topic) = { cls := 1, source := r.station, body := .recallFor topic }) ∧
    ∀ i : PubIndex,
      ((s.pubs.table[i]).item = some .newValue → latchesRepeat s (.update i) = false ∧
        latchedFrame s (.update i) =
          { cls := (s.pubs.table[i]).cls, source := r.station,
            body := .update (s.pubs.table[i]).firstArmed false (s.pubs.table[i]).topic (s.pubs.table[i]).nextSeq
              (s.pubs.table[i]).payload }) ∧
      ((s.pubs.table[i]).item = some .repeatValue → latchesRepeat s (.update i) = true ∧
        latchedFrame s (.update i) =
          { cls := (s.pubs.table[i]).cls, source := r.station,
            body := .update false true (s.pubs.table[i]).topic ((s.pubs.table[i]).nextSeq - 1)
              (s.pubs.table[i]).payload })

/-- SEND_END: after the last stop bit LDE is deasserted (R15). -/
def Obligations.SendEndReleasesTheDriver : Prop :=
  ∀ (s : State) (n : Nat), s.held = false → s.line.send = .sending n →
    ∃ t, exec .sendEnd s = .next t ∧ t = { s with line := { s.line with send := .off } } ∧ lde t = false

/-- COLLISION: a jam of 24 bit times, all bases 31, 8 added to the score up to 255 with the standing of R36, one more
attempt of the item in flight (R31). The mismatch is the first bit time in which the line differs from what is driven
(R16); without one, nothing happens. A mismatch in the start mark leaves it unaccepted, for as long as its active run goes
on (R16). An own frame in reception whose levels differ collides too, and when it ends with
them it is BROKEN or damaged, with no second collision; damaged it adds 1 more to the score (R34). That a COLLISION with
no mismatch does nothing (log 1), that one behind the start mark implies it (log 2), that the events of the own frame are
compared (log 14), and that an own frame which does not end as it was sent is a collision and none that collided is CLEAN
(log 27) is the model's choice. -/
def Obligations.CollisionJamsAndScores : Prop :=
  ∀ (s : State) (n : Nat) (f : Flight), s.held = false → s.line.send = .sending n → s.access.inFlight = some f →
    (∀ (received : List LineLevel) (m : Nat), echoMismatch s 0 received = some m ↔
      (∃ d r, (frameLevels (withCheck f.covered))[m]? = some d ∧ received[m]? = some r ∧ d ≠ r) ∧
      ∀ k, k < m → ∀ d r, (frameLevels (withCheck f.covered))[k]? = some d → received[k]? = some r → d = r) ∧
    (∀ (received : List LineLevel) (m : Nat), echoMismatch s 0 received = some m →
      ∃ t, exec (.collision received) s = .next t ∧ Collided s t f ∧
        (s.line.receive ≠ .betweenFrames ∨ m < 8 →
          t = { s with line := { s.line with send := .jamming (24 * lineBit s), markCut := t.line.markCut },
                       access := t.access, pubs := { s.pubs with items := t.pubs.items }, port := t.port } ∧
          t.access.slotTime = s.access.slotTime) ∧
        (s.line.receive ≠ .betweenFrames → t.line.markCut = s.line.markCut) ∧
        (s.line.receive = .betweenFrames → m < 8 →
          (t.line.markCut = true ↔ ∀ l ∈ received.drop m, l = .active)) ∧
        (s.line.receive = .betweenFrames → 8 ≤ m → t.line.receive = justOpened true)) ∧
    (∀ received, echoMismatch s 0 received = none → exec (.collision received) s = .next s) ∧
    (∀ (levels : List LineLevel) (r : Reception) (m : Nat), s.line.receive = .inFrame r → r.own = true →
      echoMismatch s (8 + r.heard) levels = some m →
      (∃ t, exec (.headerComplete levels) s = .next t ∧ Collided s t f ∧
        (headerArrived (r.rx.feed levels) = false ∨ r.headerSeen = true → t.line.receive = s.line.receive)) ∧
      ((r.rx.feed levels).ended = false →
        ∃ t, exec (.frameEnd levels) s = .next t ∧ Collided s t f ∧ t.line.receive = s.line.receive)) ∧
    ∀ (levels : List LineLevel) (r : Reception), s.line.receive = .inFrame r → r.own = true →
      (r.rx.feed levels).ended = true →
      echoMismatch s (8 + r.heard) levels ≠ none ∨ (r.rx.feed levels).phase = .endedJam ∨
        (r.rx.feed levels).missingStop = true ∨ (r.rx.feed levels).chars ≠ withCheck f.covered →
      ∃ t, exec (.frameEnd levels) s = .next t ∧ t.line.receive = .betweenFrames ∧
        t.line.send = .jamming (24 * lineBit s) ∧ t.access.inFlight = some f ∧ (∀ c : FrameClass, t.access.bases[c] = 31) ∧
        t.pubs.items = (s.pubs.items.map fun it =>
          if it.kind = f.kind then { it with attempts := it.attempts + 1 } else it) ∧
        ((∃ fr, judge (r.rx.feed levels) = .clean fr) ∨ judge (r.rx.feed levels) = .broken → Collided s t f) ∧
        (judge (r.rx.feed levels) = .malformed ∨ judge (r.rx.feed levels) = .checkFailed →
          t.access.score = min 255 (s.access.score + 9))

/-- JAM_END before the sixteenth collision, in every station state but LEAVING: LDE is deasserted, the item is no longer in
flight and keeps its place and its count, except that the item of a WITHDRAWING publication is removed and its entry freed
(R15, R32, R128, R159). So a CLAIM keeps its place in CLAIMING and is tried again, and nothing of the session changes (R45). That the idle of the next gap is counted from the end of the jam, and not where the line is active beyond it or a
frame is being received, is the model's reading of R5 (log 23). The booking follows (R25, R27). -/
def Obligations.JamEndKeepsTheItemForARetry : Prop :=
  ∀ (s : State) (n : Nat) (f : Flight), s.held = false → s.line.send = .jamming n → s.access.inFlight = some f →
    s.session.state ≠ .leaving → attemptsOf s f.kind < 16 →
    ∃ t, exec .jamEnd s = .next t ∧ lde t = false ∧
      (s.line.receive = .betweenFrames → s.line.level = .idle → t.line.gap = some 0) ∧
      (s.line.level = .active → t.line.gap = none) ∧
      (∀ r, s.line.receive = .inFrame r → t.line.gap = none) ∧
      t = { s with line := { s.line with send := .off, gap := t.line.gap, markCut := false },
                   access := { s.access with inFlight := none, booking := t.access.booking },
                   pubs := t.pubs, epoch := { s.epoch with request := t.epoch.request } } ∧
      SettledBooking (landed s) t ∧
      ((∀ i, f.kind = .update i → (s.pubs.table[i]).state ≠ .withdrawing) → t.pubs.items = s.pubs.items) ∧
      (∀ i, f.kind = .update i → (s.pubs.table[i]).state = .withdrawing →
        t.pubs.items = (s.pubs.items.filter fun it => it.kind != f.kind) ∧ t.pubs.table[i] = PubEntry.initial) ∧
      (∀ i, f.kind = .update i → (s.pubs.table[i]).state = .active →
        (t.pubs.table[i]).inFlight = false ∧ (t.pubs.table[i]).rePend = false ∧
        (t.pubs.table[i]).item = (s.pubs.table[i]).item ∧ (t.pubs.table[i]).nextSeq = (s.pubs.table[i]).nextSeq) ∧
      (f.kind = .epoch → t.epoch.request = .waiting) ∧ (f.kind ≠ .epoch → t.epoch.request = s.epoch.request)

/-- JAM_END at the sixteenth collision: TRANSMIT_ABANDONED is posted, the item is removed, then the owner acts: a RECALL
and an EPOCH report ABANDONED, a CLAIM in CLAIMING refuses the station (R33, R45, R128, R148, R159). The booking follows
(R25, R27). -/
def Obligations.SixteenthCollisionAbandonsTheItem : Prop :=
  ∀ (s : State) (n : Nat) (f : Flight), s.held = false → s.line.send = .jamming n → s.access.inFlight = some f →
    16 ≤ attemptsOf s f.kind →
    (s.session.state = .member → f.kind ≠ .claim →
      ∃ t, exec .jamEnd s = .next t ∧ t.access.inFlight = none ∧ t.line.send = .off ∧ SettledBooking (landed s) t ∧
        t.pubs.items = (s.pubs.items.filter fun it => it.kind != f.kind) ∧ t.session = s.session ∧
        t.access.score = s.access.score ∧ t.access.bases = s.access.bases ∧
        (∀ d, f.kind = .presence d →
          t.port = (postAll s [.transmitAbandoned .presence (ownNumber s).val]).port) ∧
        (f.kind = .epoch → t.epoch.request = .none ∧
          t.port = (postAll s [.transmitAbandoned .epoch (s.epoch.latched.getD 0).toNat, .epochDone .abandoned]).port) ∧
        (∀ topic p, f.kind = .recallItem topic → recallAt s topic = some p →
          t.cont.recalls[p] = RecallEntry.initial ∧
          t.port = (postAll s [.transmitAbandoned .recallFrame topic.toNat, .recallDone topic .abandoned]).port) ∧
        (∀ i, f.kind = .update i →
          t.port = (postAll s [.transmitAbandoned .update i.val]).port ∧
          ((s.pubs.table[i]).state = .withdrawing → t.pubs.table[i] = PubEntry.initial) ∧
          ((s.pubs.table[i]).state = .active → (t.pubs.table[i]).state = .active ∧ (t.pubs.table[i]).item = none ∧
            (t.pubs.table[i]).inFlight = false ∧ (t.pubs.table[i]).dirty = (s.pubs.table[i]).dirty))) ∧
    (s.session.state = .claiming → f.kind = .claim → (∀ p : RecallPos, (s.cont.recalls[p]).state = .free) →
      s.epoch.request = .none →
      ∃ t, exec .jamEnd s = .next t ∧ t.session.state = .refused ∧ t.pubs.items = [] ∧ t.access.booking = none ∧
        t.port = (postAll s [.transmitAbandoned .claim (ownNumber s).val, .sessionRefused .claimFailed]).port)

/-- BLOCKED_LINE_EVENT: 8 added to the score, LINE_BLOCKED posted, the booking dropped, the standing re-evaluated; the
period is reported once (R7, R34, R35). That LINE_BLOCKED stands before STANDING_CHANGED is the model's reading of R35 (log
24). -/
def Obligations.BlockedLineScoresOncePerPeriod : Prop :=
  ∀ (s : State) (m : BlockedMeasure), s.held = false → s.line.blocked = some m →
    (m.reported = false →
      ∃ t, exec .blockedLineEvent s = .next t ∧
        t = { s with line := { s.line with blocked := some { m with reported := true } },
                     access := { s.access with booking := none, score := t.access.score, standing := t.access.standing },
                     port := t.port } ∧
        t.access.score = min 255 (s.access.score + 8) ∧
        standingRow s.access.standing t.access.score t.access.standing ∧
        t.port = (postAll s (.lineBlocked :: standingNotices s.access.standing t.access.standing)).port) ∧
    (m.reported = true → exec .blockedLineEvent s = .next s)

/-- HEADER_COMPLETE of an UPDATE just opened, foreign or own (R13, R16): the matching walk visits the entries in ascending
index from an empty reservation list (R68). It makes an empty list when no entry matches; when the lowest matching entry,
with CONTINUE clear, names a queue with room, one cell moves from the pool into that queue's reservation and the entry is
engaged. An entry visited is passed over when it does not match (R69), shares a target that is reserved (R70), reserves
one that has room (R71, R72), and else spills over or takes the overflow mark (R73). After a walk that only spilled, R74
both lists the spilled-over marks and calls the list empty: that they stay in it until the frame is closed is the model's
choice (log 25). -/
def Obligations.HeaderCompleteReservesACell : Prop :=
  (∀ (s : State) (own : Bool) (cls : Nat) (source t1 t0 seq len : Byte) (h : Header), s.held = false →
    s.line.receive = justOpened own → 1 ≤ cls → cls ≤ 6 → len.toNat ≤ 32 →
    (own = true → s.access.inFlight = none ∨ s.line.send.isJamming = true ∨
      ∃ f rest, s.access.inFlight = some f ∧ f.covered = byteOf (16 + cls) :: source :: t1 :: t0 :: seq :: len :: rest) →
    h = { own := own, cls := Fin.ofNat 8 cls, source := Fin.ofNat 32 (source.toNat % 32), first := source.getLsbD 7,
          again := source.getLsbD 6, topic := t1 ++ t0, seq := seq, length := len.toNat } →
    (∃ rx, exec (.headerComplete (charactersLevels [byteOf (16 + cls), source, t1, t0, seq, len])) s = .next
      (walk h (List.finRange 32) { s with
        line := { s.line with receive := .inFrame { own := own, headerSeen := true, heard := 60, rx := rx } },
        accept := { s.accept with plan := Plan.empty } })) ∧
    ((∀ i : SubIndex, (s.accept.table[i]).accepts (quotaOf s) h = false) →
      ∃ rx, exec (.headerComplete (charactersLevels [byteOf (16 + cls), source, t1, t0, seq, len])) s = .next
        { s with line := { s.line with receive := .inFrame { own := own, headerSeen := true, heard := 60, rx := rx } },
                 accept := { s.accept with plan := Plan.empty } }) ∧
    (∀ (i : SubIndex) (q : QueueNo), (∀ j : SubIndex, j < i → (s.accept.table[j]).accepts (quotaOf s) h = false) →
      (s.accept.table[i]).accepts (quotaOf s) h = true → (s.accept.table[i]).target = .queue q →
      (s.accept.table[i]).keepOn = false →
      (s.store.queues[q]).cells < quotaOf s q → 0 < s.store.free →
      ∃ rx t, exec (.headerComplete (charactersLevels [byteOf (16 + cls), source, t1, t0, seq, len])) s = .next t ∧
        t = { s with line := { s.line with receive := .inFrame { own := own, headerSeen := true, heard := 60, rx := rx } },
                     accept := t.accept, store := t.store } ∧
        t.accept.plan = { targets := [{ target := .queue q, reserver := i, sharers := [] }], spilled := [], overflow := none } ∧
        t.accept.table[i] = { s.accept.table[i] with engaged := true } ∧
        (∀ j : SubIndex, j ≠ i → t.accept.table[j] = s.accept.table[j]) ∧
        t.store.free = s.store.free - 1 ∧ t.store.slots = s.store.slots ∧
        t.store.queues[q] = { s.store.queues[q] with reserved := true } ∧
        ∀ q' : QueueNo, q' ≠ q → t.store.queues[q'] = s.store.queues[q'])) ∧
  ∀ (s : State) (h : Header) (i : SubIndex),
    (∀ is, walk h (i :: is) s = if (visit h s i).2 then walk h is (visit h s i).1 else (visit h s i).1) ∧
    ((s.accept.table[i]).accepts (quotaOf s) h = true ↔
      (s.accept.table[i]).state = .active ∧
      (∀ n : Nat, (s.accept.table[i]).mask.getLsbD n = true → h.topic.getLsbD n = (s.accept.table[i]).value.getLsbD n) ∧
      ((s.accept.table[i]).source = none ∨ (s.accept.table[i]).source = some h.source) ∧
      (h.own = true → (s.accept.table[i]).acceptSelf = true) ∧
      ∀ q, (s.accept.table[i]).target = .queue q → 0 < quotaOf s q) ∧
    ((s.accept.table[i]).accepts (quotaOf s) h = false → visit h s i = (s, true)) ∧
    ((s.accept.table[i]).accepts (quotaOf s) h = true →
      ((∃ r ∈ s.accept.plan.targets, r.target = (s.accept.table[i]).target) →
        ∃ t, visit h s i = (t, (s.accept.table[i]).keepOn) ∧ t = { s with accept := t.accept } ∧
          t.accept.plan = { s.accept.plan with targets := s.accept.plan.targets.map fun r =>
            if r.target = (s.accept.table[i]).target then { r with sharers := r.sharers ++ [i] } else r } ∧
          t.accept.table[i] = { s.accept.table[i] with engaged := true } ∧
          ∀ j : SubIndex, j ≠ i → t.accept.table[j] = s.accept.table[j]) ∧
      ((∀ r ∈ s.accept.plan.targets, r.target ≠ (s.accept.table[i]).target) →
        (∀ k, (s.accept.table[i]).target = .slot k →
          ∃ t, visit h s i = (t, (s.accept.table[i]).keepOn) ∧ t = { s with accept := t.accept } ∧
            t.accept.plan = { s.accept.plan with
              targets := s.accept.plan.targets ++ [{ target := .slot k, reserver := i, sharers := [] }] } ∧
            t.accept.table[i] = { s.accept.table[i] with engaged := true } ∧
            ∀ j : SubIndex, j ≠ i → t.accept.table[j] = s.accept.table[j]) ∧
        (∀ q, (s.accept.table[i]).target = .queue q → (∀ m ∈ s.accept.plan.spilled, m.1 ≠ q) →
          (s.store.queues[q]).cells < quotaOf s q → 0 < s.store.free →
          ∃ t, visit h s i = (t, (s.accept.table[i]).keepOn) ∧ t = { s with accept := t.accept, store := t.store } ∧
            t.accept.plan = { s.accept.plan with
              targets := s.accept.plan.targets ++ [{ target := .queue q, reserver := i, sharers := [] }] } ∧
            t.accept.table[i] = { s.accept.table[i] with engaged := true } ∧
            (∀ j : SubIndex, j ≠ i → t.accept.table[j] = s.accept.table[j]) ∧
            t.store.free = s.store.free - 1 ∧ t.store.slots = s.store.slots ∧
            t.store.queues[q] = { s.store.queues[q] with reserved := true } ∧
            ∀ q' : QueueNo, q' ≠ q → t.store.queues[q'] = s.store.queues[q']) ∧
        (∀ q reason, (s.accept.table[i]).target = .queue q →
          ((∃ before after, s.accept.plan.spilled = before ++ (q, reason) :: after ∧ ∀ m ∈ before, m.1 ≠ q) ∨
            ((∀ m ∈ s.accept.plan.spilled, m.1 ≠ q) ∧
              ((reason = .quota ∧ quotaOf s q ≤ (s.store.queues[q]).cells) ∨
                (reason = .pool ∧ (s.store.queues[q]).cells < quotaOf s q ∧ s.store.free = 0)))) →
          ((s.accept.table[i]).spill = true → visit h s i =
            ({ s with accept := { s.accept with
                plan := { s.accept.plan with spilled := s.accept.plan.spilled ++ [(q, reason)] } } }, true)) ∧
          ((s.accept.table[i]).spill = false → visit h s i =
            ({ s with accept := { s.accept with
                plan := { s.accept.plan with overflow := some (q, reason) } } }, false)))))

/-! ## Frames and frame ends -/

/-- What one station sends, another reads: the levels of a frame that a station can send, received after a start mark,
end CLEAN with every field as it was sent (R2, R8 to R12, R15). The bytes of each kind stand as 12.1 lays them out, with the
check behind them, high byte first (R11); a start mark is 6 active and 2 idle bit times (R3), and a character a start bit,
the data bits least significant first, and a stop bit (R2). -/
def Obligations.SentFrameIsReceivedClean : Prop :=
  (∀ f : Frame, f.sendable → judge (Receiver.start.feed (wholeFrame (withCheck (encodeFrame f)))) = .clean f) ∧
  (∀ (c : FrameClass) (x : Station) (t1 t0 g3 g2 g1 g0 : Byte) (seq : SeqNo) (a b d : Bool) (payload : List Byte),
    encodeFrame { cls := c, source := x, body := .update a b (t1 ++ t0) seq payload } =
      byteOf (0x10 + c.val) :: byteOf (128 * a.toNat + 64 * b.toNat + x.val) :: t1 :: t0 :: seq :: byteOf payload.length
        :: payload ∧
    encodeFrame { cls := c, source := x, body := .recallFor (t1 ++ t0) } =
      [byteOf (0x20 + c.val), byteOf x.val, t1, t0] ∧
    encodeFrame { cls := c, source := x, body := .epoch seq } = [byteOf (0x30 + c.val), byteOf x.val, seq] ∧
    encodeFrame { cls := c, source := x, body := .presence a b d (g3 ++ g2 ++ g1 ++ g0) seq } =
      [byteOf (0x40 + c.val), byteOf (128 * a.toNat + 64 * b.toNat + 32 * d.toNat + x.val), g3, g2, g1, g0, seq] ∧
    encodeFrame { cls := c, source := x, body := .claim (g3 ++ g2 ++ g1 ++ g0) } =
      [byteOf (0x50 + c.val), byteOf x.val, g3, g2, g1, g0]) ∧
  (∀ (covered : List Byte) (hi lo : Byte), checkOf covered = hi ++ lo → withCheck covered = covered ++ [hi, lo]) ∧
  (∀ bs : List Byte, frameLevels bs = List.replicate 6 .active ++ List.replicate 2 .idle ++ charactersLevels bs) ∧
  charactersLevels [] = [] ∧
  ∀ (b : Byte) (bs : List Byte), charactersLevels (b :: bs) =
    .active :: ((List.range 8).map fun n => if b.getLsbD n = true then .idle else .active) ++ .idle :: charactersLevels bs

/-- The check starts at 0xFFFF; each covered byte is combined into the upper eight bits, and the remainder is then shifted
eight times, combined with 0x1021 where its highest bit was 1 (R11). Running it over the covered bytes and the two check
bytes leaves 0 (R11's note), and the worked example of 1.6 gives 0xE1F7. -/
def Obligations.CheckOfACheckedFrameIsZero : Prop :=
  (∀ covered : List Byte, checkOf (withCheck covered) = 0) ∧
  checkOf [] = 0xFFFF ∧
  (∀ (covered : List Byte) (b : Byte),
    checkOf (covered ++ [b]) = checkShift^[8] (checkOf covered ^^^ (b ++ (0 : Byte) : BitVec 16))) ∧
  (∀ r : BitVec 16, checkShift r = if r.getLsbD 15 = true then (r <<< 1) ^^^ 0x1021 else r <<< 1) ∧
  checkOf [0x13, 0x05, 0x01, 0x02, 0x00, 0x00] = 0xE1F7

/-- FRAME_END of a CLEAN foreign frame: its class's base becomes its source and no other base changes; the score falls by 1
in QUIET, where the standing is evaluated anew and a return to NORMAL is noticed, and neither changes otherwise; the receive
side is back between frames (R21, R34, R36, R38, R4), and the booking follows (R25, R27). -/
def Obligations.CleanForeignFrameMovesItsBase : Prop :=
  ∀ (s : State) (f : Frame), s.held = false → s.line.receive = justOpened false → f.sendable →
    ∃ t, exec (.frameEnd (wholeFrame (withCheck (encodeFrame f)))) s = .next t ∧
      t.access.bases[f.cls] = f.source ∧ (∀ c : FrameClass, c ≠ f.cls → t.access.bases[c] = s.access.bases[c]) ∧
      (s.access.standing = .quiet → t.access.score = s.access.score - 1 ∧
        standingRow .quiet t.access.score t.access.standing ∧
        (t.access.standing = .normal → notified s t (.standingChanged .normal)) ∧
        (t.access.standing ≠ .normal → unnotified s t fun n => ∃ st, n = .standingChanged st)) ∧
      (s.access.standing ≠ .quiet → t.access.score = s.access.score ∧ t.access.standing = s.access.standing ∧
        unnotified s t fun n => ∃ st, n = .standingChanged st) ∧
      SettledBooking s t ∧
      t.line.receive = .betweenFrames ∧ t.line.clock = s.line.clock ∧ t.line.send = s.line.send

/-- FRAME_END of a foreign frame that is not CLEAN, or of the own frame of an attempt that has collided: every reservation is
released, its cells back in the pool, and nothing is stored; BROKEN sets the bases to 31 and keeps the score, CHECK_FAILED
and MALFORMED add 1 to the score (R22, R34, R81, R91). With a header complete, noted before or within the levels of the
frame end (log 2), the frame is closed (R82); without one the Acceptance Unit and the Message Store are not touched (R84).
The booking follows (R25, R27). The cells are counted in states that keep the invariant planFits. That an own frame which is
CLEAN after a collision is BROKEN is the model's choice (log 27). -/
def Obligations.DamagedFrameReachesNoTarget : Prop :=
  ∀ (s : State) (levels : List LineLevel) (r : Reception), s.held = false → s.line.receive = .inFrame r →
    (r.rx.feed levels).ended = true →
    (r.own = false ∧ ∀ f, judge (r.rx.feed levels) ≠ .clean f) ∨
      (r.own = true ∧ (s.access.inFlight = none ∨ s.line.send.isJamming = true)) →
    ∃ t, exec (.frameEnd levels) s = .next t ∧
      t.line.receive = .betweenFrames ∧ SettledBooking s t ∧
      (planFits s → t.accept.plan = Plan.empty ∧ (∀ q : QueueNo, (t.store.queues[q]).reserved = false) ∧
        t.store.free = s.store.free + s.store.reservedCells) ∧
      (r.headerSeen = true ∨
          (∃ n, n < levels.length ∧ headerArrived (r.rx.feed (levels.take (n + 1))) = true) →
        t.accept.plan = Plan.empty ∧ (∀ i : SubIndex, (t.accept.table[i]).engaged = false) ∧
        ∀ i : SubIndex, t.accept.table[i] =
          if (s.accept.table[i]).state = .withdrawing then SubEntry.initial
          else { s.accept.table[i] with engaged := false }) ∧
      (r.headerSeen = false →
          (∀ n, n < levels.length → headerArrived (r.rx.feed (levels.take (n + 1))) = false) →
        t.accept = s.accept ∧ t.store = s.store) ∧
      (∀ q : QueueNo, (t.store.queues[q]).records = (s.store.queues[q]).records ∧
        (t.store.queues[q]).dropped = (s.store.queues[q]).dropped ∧
        (t.store.queues[q]).overflow = (s.store.queues[q]).overflow ∧
        (t.store.queues[q]).lastReason = (s.store.queues[q]).lastReason) ∧
      t.store.slots = s.store.slots ∧ t.roster = s.roster ∧ t.cont = s.cont ∧ t.epoch = s.epoch ∧
      t.session = s.session ∧ t.pubs = s.pubs ∧ t.line.send = s.line.send ∧ t.access.inFlight = s.access.inFlight ∧
      (judge (r.rx.feed levels) = .broken ∨ (∃ f, judge (r.rx.feed levels) = .clean f) →
        (∀ c : FrameClass, t.access.bases[c] = 31) ∧ t.access.score = s.access.score ∧ t.port = s.port) ∧
      (judge (r.rx.feed levels) = .malformed ∨ judge (r.rx.feed levels) = .checkFailed →
        t.access.bases = s.access.bases ∧ t.access.score = min 255 (s.access.score + 1) ∧
        standingRow s.access.standing t.access.score t.access.standing ∧
        t.port = (postAll s (standingNotices s.access.standing t.access.standing)).port)

/-- FRAME_END of a CLEAN frame from a peer: its roster entry becomes PRESENT with the frame's stamp and a new silence deadline
of silence multiple × presence interval × 10 ms; a PRESENCE and a CLAIM also give caution flag, last epoch and tag, other
kinds leave them, and no other entry changes. A peer that was ABSENT is reported by PEER_JOINED, one that was SILENT by
PEER_RETURNED; a tag in place of a different one is reported behind it by PEER_REPLACED and drops the tracker entries of
that source, and no other tag does (R57, R58, R143). -/
def Obligations.RosterHearsAPeer : Prop :=
  ∀ (s : State) (f : Frame), s.held = false → s.line.receive = justOpened false → f.sendable →
    f.source ≠ ownNumber s → (s.roster[f.source]).state ≠ .selfEntry →
    ∃ t, exec (.frameEnd (wholeFrame (withCheck (encodeFrame f)))) s = .next t ∧
      (t.roster[f.source]).state = .present ∧ (t.roster[f.source]).lastHeard = s.line.clock ∧
      (t.roster[f.source]).deadline = silenceTime s ∧
      (∀ rec, s.session.record = some rec →
        (t.roster[f.source]).deadline = some (rec.silenceMultiple * rec.presenceInterval * 10 * 1000)) ∧
      (∀ n : Station, n ≠ f.source → t.roster[n] = s.roster[n]) ∧
      (∀ caution defence noEpoch tag last, f.body = .presence caution defence noEpoch tag last →
        (t.roster[f.source]).caution = caution ∧ (t.roster[f.source]).tag = some tag ∧
        (t.roster[f.source]).lastEpoch = (if noEpoch then none else some last)) ∧
      (∀ tag, f.body = .claim tag → (t.roster[f.source]).caution = false ∧ (t.roster[f.source]).tag = some tag ∧
        (t.roster[f.source]).lastEpoch = none) ∧
      (f.body.tag = none → (t.roster[f.source]).caution = (s.roster[f.source]).caution ∧
        (t.roster[f.source]).tag = (s.roster[f.source]).tag ∧
        (t.roster[f.source]).lastEpoch = (s.roster[f.source]).lastEpoch ∧
        unnotified s t fun n => ∃ y, n = .peerReplaced y) ∧
      (∀ tag, f.body.tag = some tag →
        ((s.roster[f.source]).tag = none ∨ (s.roster[f.source]).tag = some tag →
          t.cont.tracker = s.cont.tracker ∧ unnotified s t fun n => ∃ y, n = .peerReplaced y) ∧
        (∀ old, (s.roster[f.source]).tag = some old → old ≠ tag →
          t.cont.tracker = (s.cont.tracker.filter fun e => e.source != f.source) ∧
          notified s t (.peerReplaced f.source) ∧
          ((s.roster[f.source]).state = .silent → s.port.notices = [] →
            [{ notice := .peerReturned f.source, stamp := s.line.clock },
             { notice := .peerReplaced f.source, stamp := s.line.clock }].Sublist t.port.notices))) ∧
      ((s.roster[f.source]).state = .absent → notified s t (.peerJoined f.source)) ∧
      ((s.roster[f.source]).state = .silent → notified s t (.peerReturned f.source)) ∧
      ((s.roster[f.source]).state ≠ .absent → unnotified s t fun n => ∃ y, n = .peerJoined y) ∧
      ((s.roster[f.source]).state ≠ .silent → unnotified s t fun n => ∃ y, n = .peerReturned y)

/-- FRAME_END of the own CLAIM, CLEAN in CLAIMING: the station is MEMBER with its presence timer started and JOINED posted;
the item has left the flight, base 7 is the own number, and every ACTIVE publication numbers from 0 with FIRST armed
(R21, R30, R46, R124). Every own clean end in MEMBER removes the item, takes 2 from the score and restarts the presence
timer (R30, R49); an UPDATE advances its publication and is followed by a new item where it is to be sent again (R127),
a RECALL waits for its answer (R148), an EPOCH settles its request as SENT (R159). The booking follows, with the permission
that the MEMBER gains (R25, R27). -/
def Obligations.CleanClaimMakesAMember : Prop :=
  (∀ (s : State) (r : Record) (f : Flight), s.held = false → s.line.receive = justOpened true →
    s.line.send.isJamming = false → s.session.state = .claiming → s.session.record = some r →
    s.access.inFlight = some f → f.kind = .claim →
    f.covered = encodeFrame { cls := 7, source := r.station, body := .claim r.unitTag } →
    ∃ t, exec (.frameEnd (wholeFrame (withCheck f.covered))) s = .next t ∧
      t.session = { s.session with state := .member, presenceTimer := some (r.presenceInterval * 10 * 1000) } ∧
      t.access.inFlight = none ∧ t.access.bases[(7 : FrameClass)] = r.station ∧ SettledBooking (landed s) t ∧
      t.access.score = s.access.score - 2 ∧ (∀ it ∈ t.pubs.items, it.kind ≠ .claim) ∧
      (∀ i : PubIndex, (s.pubs.table[i]).state = .active →
        (t.pubs.table[i]).nextSeq = 0 ∧ (t.pubs.table[i]).firstArmed = true ∧
        ((s.pubs.table[i]).hasValue = true → (s.pubs.table[i]).item = none →
          (t.pubs.table[i]).item = some .newValue ∧ ∃ it ∈ t.pubs.items, it.kind = .update i)) ∧
      (s.port.notices = [] → { notice := .joined, stamp := s.line.clock } ∈ t.port.notices)) ∧
  ∀ (s : State) (r : Record) (f : Flight) (fr : Frame), OwnEcho s f fr → s.session.record = some r →
    s.session.state = .member →
    ∃ t, exec (.frameEnd (wholeFrame (withCheck f.covered))) s = .next t ∧
      t.line.receive = .betweenFrames ∧ t.line.send = .off ∧ t.access.inFlight = none ∧ SettledBooking (landed s) t ∧
      t.session = { s.session with presenceTimer := some (r.presenceInterval * 10 * 1000) } ∧
      t.access.score = s.access.score - 2 ∧ standingRow s.access.standing t.access.score t.access.standing ∧
      t.access.bases[fr.cls] = r.station ∧ (∀ c : FrameClass, c ≠ fr.cls → t.access.bases[c] = s.access.bases[c]) ∧
      ((∀ p : RecallPos, (s.cont.recalls[p]).state = .free ∨ ∃ topic, f.kind = .recallItem topic) →
        ((∀ i, f.kind = .update i → (s.pubs.table[i]).rePend = false ∨ (s.pubs.table[i]).state ≠ .active) →
          t.pubs.items = s.pubs.items.filter fun it => it.kind != f.kind)) ∧
      (∀ i, f.kind = .update i →
        (∀ j : PubIndex, j ≠ i → t.pubs.table[j] = s.pubs.table[j]) ∧
        ((s.pubs.table[i]).state = .withdrawing → t.pubs.table[i] = PubEntry.initial) ∧
        ((s.pubs.table[i]).state = .active →
          (t.pubs.table[i]).inFlight = false ∧ (t.pubs.table[i]).rePend = false ∧
          (t.pubs.table[i]).state = .active ∧ (t.pubs.table[i]).payload = (s.pubs.table[i]).payload ∧
          (f.latchedRepeat = false →
            (t.pubs.table[i]).nextSeq = (s.pubs.table[i]).nextSeq + 1 ∧ (t.pubs.table[i]).firstArmed = false ∧
            (t.pubs.table[i]).dirty = ((s.pubs.table[i]).dirty && (s.pubs.table[i]).writtenSinceLatch)) ∧
          (f.latchedRepeat = true →
            (t.pubs.table[i]).nextSeq = (s.pubs.table[i]).nextSeq ∧
            (t.pubs.table[i]).firstArmed = (s.pubs.table[i]).firstArmed ∧
            (t.pubs.table[i]).dirty = (s.pubs.table[i]).dirty) ∧
          ((s.pubs.table[i]).rePend = false → (t.pubs.table[i]).item = none) ∧
          ((s.pubs.table[i]).rePend = true → (s.pubs.table[i]).hasValue = true →
            (t.pubs.table[i]).item = some .newValue ∧
            { kind := .update i, cls := (s.pubs.table[i]).cls, attempts := 0, placed := s.pubs.placements } ∈ t.pubs.items)) ∧
        (∀ first again topic seq payload, fr.body = .update first again topic seq payload → s.cont.recallsFit →
          ∀ p : RecallPos, (s.cont.recalls[p]).state ≠ .free → (s.cont.recalls[p]).topic = topic →
            t.cont.recalls[p] = RecallEntry.initial)) ∧
      (∀ topic, f.kind = .recallItem topic →
        t.pubs.table = s.pubs.table ∧ t.cont.tracker = s.cont.tracker ∧
        (s.cont.recallsFit → ∀ p : RecallPos, (s.cont.recalls[p]).state ≠ .free → (s.cont.recalls[p]).topic = topic →
          t.cont.recalls[p] = { s.cont.recalls[p] with state := .sent, deadline := some (r.recallWait * 1000) } ∧
          ∀ p', p' ≠ p → t.cont.recalls[p'] = s.cont.recalls[p'])) ∧
      (∀ e, fr.body = .epoch e → t.pubs.table = s.pubs.table ∧ t.epoch.request = .none ∧ t.epoch.latched = none ∧
        t.epoch.lastSeen = some e ∧ notified s t (.epochDone (.sent e r.station))) ∧
      (∀ defence, f.kind = .presence defence → t.pubs.table = s.pubs.table ∧ t.epoch = s.epoch ∧ t.cont = s.cont)

/-- FRAME_END of a CLEAN UPDATE, foreign or the own echo in MEMBER (R68), whose one reserved target is a slot: the slot is
overwritten, FRESH and changed, with its deadline started, SELF as the own marker, and no other slot and no queue is touched
(R78, R106). In general every reserved target is
delivered to, refreshed or released by the entries engaged on it and the frame's classification (R76 to R79, R90, R107,
R142), the overflow mark is recorded (R80, R93), and the frame is closed (R82). The booking follows (R25, R27). -/
def Obligations.CleanUpdateIsDeliveredToItsSlot : Prop :=
  (∀ (s : State) (levels : List LineLevel) (r : Reception) (cls : FrameClass) (source : Station) (first again : Bool)
    (topic : Topic) (seq : SeqNo) (payload : List Byte) (i : SubIndex) (k : SlotNo),
    (ForeignEnd s levels r { cls := cls, source := source, body := .update first again topic seq payload } ∨
      OwnEnd s levels r { cls := cls, source := source, body := .update first again topic seq payload }) →
    r.headerSeen = true →
    s.accept.plan = { targets := [{ target := .slot k, reserver := i, sharers := [] }], spilled := [], overflow := none } →
    (∀ j : SubIndex, (s.accept.table[j]).engaged = true → j = i) → (s.accept.table[i]).track = false →
    ∃ t, exec (.frameEnd levels) s = .next t ∧
      t.store.slots[k] =
        { state := .fresh,
          contents := { topic := topic, source := source, seq := seq, first := first, again := again, selfMade := r.own,
                        gap := false, missing := 0, payload := payload, stamp := s.line.clock },
          changed := true, limit := (s.store.slots[k]).limit,
          deadline := (if (s.store.slots[k]).limit = 0 then none else some ((s.store.slots[k]).limit * 1000)),
          reason := none } ∧
      (∀ j : SlotNo, j ≠ k → t.store.slots[j] = s.store.slots[j]) ∧ SettledBooking (afterFrame s r) t ∧
      t.store.queues = s.store.queues ∧ t.store.free = s.store.free ∧ t.accept.plan = Plan.empty ∧
      t.cont.tracker = s.cont.tracker) ∧
  (∀ (s : State) (levels : List LineLevel) (r : Reception) (cls : FrameClass) (source : Station) (first again : Bool)
    (topic : Topic) (seq : SeqNo) (payload : List Byte) (c : Option Classification),
    (ForeignEnd s levels r { cls := cls, source := source, body := .update first again topic seq payload } ∨
      OwnEnd s levels r { cls := cls, source := source, body := .update first again topic seq payload }) →
    r.headerSeen = true → planFits s →
    ((∃ i : SubIndex, (s.accept.table[i]).engaged = true ∧ (s.accept.table[i]).track = true) →
      c = some (classify s.cont.tracker source topic seq first)) →
    ((∀ i : SubIndex, (s.accept.table[i]).engaged = true → (s.accept.table[i]).track = false) → c = none) →
    ∃ t, exec (.frameEnd levels) s = .next t ∧ SettledBooking (afterFrame s r) t ∧
      (∀ x ∈ s.accept.plan.targets, ∀ q, x.target = .queue q →
        ((∀ i ∈ x.entries, qualifies s c i = false) →
          (t.store.queues[q]).records = (s.store.queues[q]).records ∧ (t.store.queues[q]).reserved = false) ∧
        (∀ i ∈ x.entries, qualifies s c i = true → (∀ j ∈ x.entries, qualifies s c j = true → i ≤ j) →
          (t.store.queues[q]).reserved = false ∧
          (t.store.queues[q]).records = (s.store.queues[q]).records ++
            [{ topic := topic, source := source, seq := seq, first := first, again := again, selfMade := r.own,
               gap := isGap c, missing := missingOf c, entry := i, stamp := s.line.clock, payload := payload }])) ∧
      (∀ x ∈ s.accept.plan.targets, ∀ k, x.target = .slot k →
        ((∃ i ∈ x.entries, qualifies s c i = true) → t.store.slots[k] =
          { state := .fresh,
            contents := { topic := topic, source := source, seq := seq, first := first, again := again, selfMade := r.own,
                          gap := isGap c, missing := missingOf c, payload := payload, stamp := s.line.clock },
            changed := true, limit := (s.store.slots[k]).limit,
            deadline := (if (s.store.slots[k]).limit = 0 then none else some ((s.store.slots[k]).limit * 1000)),
            reason := none }) ∧
        ((∀ i ∈ x.entries, qualifies s c i = false) → c = some .duplicate → (s.store.slots[k]).state ≠ .empty →
          t.store.slots[k] = { s.store.slots[k] with
            state := .fresh, reason := none,
            deadline := (if (s.store.slots[k]).limit = 0 then none else some ((s.store.slots[k]).limit * 1000)) }) ∧
        ((∀ i ∈ x.entries, qualifies s c i = false) → c ≠ some .duplicate ∨ (s.store.slots[k]).state = .empty →
          t.store.slots[k] = s.store.slots[k])) ∧
      (∀ q : QueueNo, (∀ x ∈ s.accept.plan.targets, x.target ≠ .queue q) →
        (t.store.queues[q]).records = (s.store.queues[q]).records ∧ (t.store.queues[q]).reserved = false) ∧
      (∀ k : SlotNo, (∀ x ∈ s.accept.plan.targets, x.target ≠ .slot k) → t.store.slots[k] = s.store.slots[k]) ∧
      ((∀ x ∈ s.accept.plan.targets, ∃ i ∈ x.entries, qualifies s c i = true) → t.store.free = s.store.free) ∧
      ((∀ x ∈ s.accept.plan.targets, ∀ i ∈ x.entries, qualifies s c i = false) →
        t.store.free = s.store.free + s.store.reservedCells) ∧
      (∀ q : QueueNo, (∀ reason, s.accept.plan.overflow ≠ some (q, reason)) →
        (t.store.queues[q]).overflow = (s.store.queues[q]).overflow ∧
        (t.store.queues[q]).dropped = (s.store.queues[q]).dropped ∧
        (t.store.queues[q]).lastReason = (s.store.queues[q]).lastReason) ∧
      (∀ q reason, s.accept.plan.overflow = some (q, reason) →
        (t.store.queues[q]).overflow = true ∧ (t.store.queues[q]).lastReason = some reason ∧
        (t.store.queues[q]).dropped = min 255 ((s.store.queues[q]).dropped + 1) ∧
        ((s.store.queues[q]).overflow = false → notified s t (.queueOverflow q reason)) ∧
        ((s.store.queues[q]).overflow = true → unnotified s t fun n => n = .queueOverflow q reason)) ∧
      t.accept.plan = Plan.empty ∧
      (∀ i : SubIndex, t.accept.table[i] =
        if (s.accept.table[i]).state = .withdrawing then SubEntry.initial
        else { s.accept.table[i] with engaged := false }) ∧
      (c = none ∨ c = some .behind → t.cont.tracker = s.cont.tracker) ∧
      (∀ old : List TrackEntry, c = some .fresh →
        (s.cont.tracker.length < 48 ∧ old = s.cont.tracker ∨ 48 ≤ s.cont.tracker.length ∧ old = s.cont.tracker.tail) →
        t.cont.tracker = old ++ [{ source := source, topic := topic, last := seq, heard := s.line.clock }]) ∧
      (∀ (before after : List TrackEntry) (x : TrackEntry), c.isSome = true → c ≠ some .fresh → c ≠ some .behind →
        s.cont.tracker = before ++ x :: after → x.source = source → x.topic = topic →
        (∀ y ∈ before ++ after, ¬(y.source = source ∧ y.topic = topic)) →
        t.cont.tracker =
          before ++ after ++ [{ source := source, topic := topic, last := seq, heard := s.line.clock }])) ∧
  (∀ (s : State) (c : Classification) (i : SubIndex),
    (qualifies s none i = true ↔ (s.accept.table[i]).track = false) ∧
    (qualifies s (some c) i = true ↔ (s.accept.table[i]).track = false ∨ (c ≠ .duplicate ∧ c ≠ .behind)) ∧
    isGap none = false ∧ missingOf none = 0 ∧ (isGap (some c) = true ↔ ∃ n, c = .gap n) ∧
    (∀ n, missingOf (some (.gap n)) = n) ∧ ((∀ n, c ≠ .gap n) → missingOf (some c) = 0)) ∧
  ∀ (before after : List TrackEntry) (x : TrackEntry) (source : Station) (topic : Topic) (seq : SeqNo) (first : Bool),
    (∀ y ∈ before, ¬(y.source = source ∧ y.topic = topic)) →
    classify before source topic seq first = .fresh ∧
    (x.source = source → x.topic = topic →
      (first = true → classify (before ++ x :: after) source topic seq first = .rebase) ∧
      (first = false →
        ((seq - x.last).toNat = 0 → classify (before ++ x :: after) source topic seq first = .duplicate) ∧
        ((seq - x.last).toNat = 1 → classify (before ++ x :: after) source topic seq first = .inOrder) ∧
        (2 ≤ (seq - x.last).toNat → (seq - x.last).toNat ≤ 127 →
          classify (before ++ x :: after) source topic seq first = .gap ((seq - x.last).toNat - 1)) ∧
        (128 ≤ (seq - x.last).toNat → classify (before ++ x :: after) source topic seq first = .behind)))

/-- FRAME_END of a CLEAN foreign EPOCH: a duplicate captures nothing; any other number is captured into the bank of R161,
with all 64 slots as they stand (R160, R161). An unexpected number posts EPOCH_GAP, an overwritten bank SNAPSHOT_OVERRUN,
and a waiting request is settled as MERGED (R160 to R162). The booking follows (R25, R27). -/
def Obligations.ForeignEpochIsCaptured : Prop :=
  ∀ (s : State) (e : SeqNo) (x : Station) (f : Frame), s.held = false → s.line.receive = justOpened false →
    f = { cls := 0, source := x, body := .epoch e } →
    ∃ t, exec (.frameEnd (wholeFrame (withCheck (encodeFrame f)))) s = .next t ∧
      t.store = s.store ∧ SettledBooking s t ∧
      (s.epoch.lastSeen = some e → t.epoch.lastSeen = some e ∧ t.epoch.banks = s.epoch.banks ∧
        t.epoch.latest = s.epoch.latest) ∧
      (s.epoch.lastSeen ≠ some e → ∃ b : Fin 2, t.epoch.latest = some b ∧ t.epoch.lastSeen = some e ∧
        (∀ b', b' ≠ b → t.epoch.banks[b'] = s.epoch.banks[b']) ∧
        (t.epoch.banks[b]).state = .filled ∧ (t.epoch.banks[b]).number = e ∧ (t.epoch.banks[b]).source = x ∧
        (t.epoch.banks[b]).stamp = s.line.clock ∧
        (∀ k : SlotNo, (t.epoch.banks[b]).copies[k] =
          { state := (s.store.slots[k]).state, reason := (s.store.slots[k]).reason,
            contents := (s.store.slots[k]).contents }) ∧
        ((s.epoch.banks[(0 : Fin 2)]).state = .empty → b = 0) ∧
        ((s.epoch.banks[(0 : Fin 2)]).state ≠ .empty → (s.epoch.banks[(1 : Fin 2)]).state = .empty → b = 1) ∧
        ((s.epoch.banks[(0 : Fin 2)]).state = .held → (s.epoch.banks[(1 : Fin 2)]).state = .filled → b = 1) ∧
        ((s.epoch.banks[(0 : Fin 2)]).state = .filled → (s.epoch.banks[(1 : Fin 2)]).state = .held → b = 0) ∧
        ((s.epoch.banks[(0 : Fin 2)]).state = .filled → (s.epoch.banks[(1 : Fin 2)]).state = .filled →
          ∀ m, s.epoch.latest = some m → b ≠ m) ∧
        ((s.epoch.banks[b]).state = .filled → notified s t (.snapshotOverrun (s.epoch.banks[b]).number)) ∧
        ((s.epoch.banks[b]).state ≠ .filled → unnotified s t fun n => ∃ m, n = .snapshotOverrun m)) ∧
      (∀ l, s.epoch.lastSeen = some l → e ≠ l → e ≠ l + 1 → notified s t (.epochGap (l + 1) e)) ∧
      (s.epoch.lastSeen = none ∨ s.epoch.lastSeen = some e ∨ s.epoch.lastSeen = some (e - 1) →
        unnotified s t fun n => ∃ m m', n = .epochGap m m') ∧
      (x ≠ ownNumber s →
        (s.epoch.request = .waiting → t.epoch.request = .none ∧ t.epoch.latched = none ∧
          t.pubs = { s.pubs with items := (s.pubs.items.filter fun it => it.kind != .epoch) } ∧
          notified s t (.epochDone (.merged e x))) ∧
        (s.epoch.request = .none → t.epoch.request = .none ∧ t.epoch.latched = s.epoch.latched ∧ t.pubs = s.pubs ∧
          unnotified s t fun n => ∃ o, n = .epochDone o))

/-! ## Timers -/

/-- LISTEN_WINDOW_EXPIRY: CLAIMING, with a CLAIM of class 7 placed. PRESENCE_TIMER_EXPIRY: the timer restarts, and a
PRESENCE of class 7 is placed when the list holds none (R44, R49, R133). FRAME_END of a CLEAN foreign frame with the own
number: a LISTENING or CLAIMING station is refused with STATION_TAKEN (R44, R45, R51); a MEMBER is refused with
DUPLICATE_LOST by a PRESENCE of a lower tag, and else defends its number, with DUPLICATE_SUSPECTED where R47 has it
(R47, R48). The booking follows each of them (R25, R27). -/
def Obligations.SessionTimersPlaceTheirItems : Prop :=
  (∀ s : State, s.held = false →
    (s.session.state = .listening → s.session.listenWindow.isSome = true →
      ∃ t, exec .listenWindowExpiry s = .next t ∧
        t = { s with
          session := { s.session with state := .claiming, listenWindow := none },
          access := { s.access with booking := t.access.booking },
          pubs := { s.pubs with
            items := insertItem { kind := .claim, cls := 7, attempts := 0, placed := s.pubs.placements } s.pubs.items,
            placements := s.pubs.placements + 1 } } ∧ SettledBooking s t) ∧
    (∀ r, s.session.record = some r → s.session.presenceTimer.isSome = true →
      ∃ t, exec .presenceTimerExpiry s = .next t ∧
        t = { s with
          session := { s.session with presenceTimer := some (r.presenceInterval * 10 * 1000) },
          access := { s.access with booking := t.access.booking },
          pubs := { s.pubs with items := t.pubs.items, placements := t.pubs.placements } } ∧ SettledBooking s t ∧
        ((∃ it ∈ s.pubs.items, it.isPresence = true) → t.pubs = s.pubs) ∧
        ((∀ it ∈ s.pubs.items, it.isPresence = false) →
          t.pubs.items =
            insertItem { kind := .presence false, cls := 7, attempts := 0, placed := s.pubs.placements } s.pubs.items))) ∧
  ∀ (s : State) (rec : Record) (levels : List LineLevel) (r : Reception) (f : Frame), ForeignEnd s levels r f →
    s.session.record = some rec → f.source = rec.station →
    ∃ t, exec (.frameEnd levels) s = .next t ∧ t.roster = s.roster ∧ SettledBooking s t ∧
      (s.session.state = .listening ∨ s.session.state = .claiming → Refused s t .stationTaken) ∧
      (s.session.state = .refused → t.session = s.session) ∧
      (s.session.state = .member →
        (∀ tag, f.body = .claim tag → t.session = s.session ∧ Defended s t ∧
          unnotified s t fun n => ∃ k, n = .duplicateSuspected k) ∧
        (∀ caution defence noEpoch tag last, f.body = .presence caution defence noEpoch tag last →
          (tag.toNat < rec.unitTag.toNat → Refused s t .duplicateLost) ∧
          (rec.unitTag.toNat ≤ tag.toNat → t.session = s.session ∧ Defended s t) ∧
          (tag = rec.unitTag → notified s t (.duplicateSuspected .presence)) ∧
          (rec.unitTag.toNat < tag.toNat → unnotified s t fun n => ∃ k, n = .duplicateSuspected k)) ∧
        ((∀ tag, f.body ≠ .claim tag) →
          (∀ caution defence noEpoch tag last, f.body ≠ .presence caution defence noEpoch tag last) →
          t.session = s.session ∧ Defended s t ∧ notified s t (.duplicateSuspected f.body.kind)))

/-- SILENCE_DEADLINE_EXPIRY of a PRESENT peer: SILENT with no deadline, its tag kept; every FRESH slot of that source goes
STALE with reason PEER_SILENT and its contents kept, and no other slot changes. PEER_SILENT is posted, and behind it
SLOT_STALE(k, PEER_SILENT) of each of these slots in ascending number (R59, R109). In MEMBER with standing NORMAL the topics
of the ACTIVE entries with RECALL that target them are recalled, slot by slot (R110, R147); the booking follows (R25,
R27). -/
def Obligations.SilentPeerMakesItsSlotsStale : Prop :=
  ∀ (s : State) (x : Station), s.held = false → (s.roster[x]).state = .present → (s.roster[x]).deadline.isSome = true →
    ∃ t, exec (.silenceDeadlineExpiry x) s = .next t ∧
      t = { s with
        access := { s.access with booking := t.access.booking }, roster := t.roster,
        store := { s.store with slots := t.store.slots },
        pubs := { s.pubs with items := t.pubs.items, placements := t.pubs.placements },
        cont := { s.cont with recalls := t.cont.recalls }, port := t.port } ∧
      t.roster[x] = { s.roster[x] with state := .silent, deadline := none } ∧
      (∀ n : Station, n ≠ x → t.roster[n] = s.roster[n]) ∧
      (∀ k : SlotNo, (s.store.slots[k]).state = .fresh → (s.store.slots[k]).contents.source = x →
        t.store.slots[k] = { s.store.slots[k] with state := .stale, deadline := none, reason := some .peerSilent }) ∧
      (∀ k : SlotNo, (s.store.slots[k]).state ≠ .fresh ∨ (s.store.slots[k]).contents.source ≠ x →
        t.store.slots[k] = s.store.slots[k]) ∧
      t.store.queues = s.store.queues ∧ t.session = s.session ∧ t.epoch = s.epoch ∧ t.accept = s.accept ∧
      (s.port.notices = [] → t.port.notices.head? = some { notice := .peerSilent x, stamp := s.line.clock }) ∧
      SettledBooking s t ∧
      ∀ ks : List SlotNo, ks = ((List.finRange 64).filter fun k =>
          decide ((s.store.slots[k]).state = .fresh ∧ (s.store.slots[k]).contents.source = x)) →
        t.port = (postAll s (.peerSilent x :: ks.map fun k => .slotStale k .peerSilent)).port ∧
        Recalled s t (staleTopics s ks) .stale

/-- FRESHNESS_DEADLINE_EXPIRY of a FRESH slot: STALE with reason FRESHNESS, contents, changed flag and limit kept, SLOT_STALE
posted; with no ACTIVE entry with RECALL that targets it, nothing else changes (R108, R110). In MEMBER with standing NORMAL
each such entry's topic is then recalled, in ascending index, unless it is an own one or the recall list is full (R110,
R147); the booking follows (R25, R27). -/
def Obligations.FreshnessExpiryMakesTheSlotStale : Prop :=
  ∀ (s : State) (k : SlotNo), s.held = false → (s.store.slots[k]).state = .fresh →
    (s.store.slots[k]).deadline.isSome = true →
    ∃ t, exec (.freshnessDeadlineExpiry k) s = .next t ∧
      t = { s with
        access := { s.access with booking := t.access.booking },
        store := { s.store with slots := t.store.slots },
        pubs := { s.pubs with items := t.pubs.items, placements := t.pubs.placements },
        cont := { s.cont with recalls := t.cont.recalls }, port := t.port } ∧
      t.store.slots[k] = { s.store.slots[k] with state := .stale, deadline := none, reason := some .freshness } ∧
      (∀ j : SlotNo, j ≠ k → t.store.slots[j] = s.store.slots[j]) ∧ t.store.queues = s.store.queues ∧
      t.port = (postAll s [.slotStale k .freshness]).port ∧
      t.roster = s.roster ∧ t.session = s.session ∧ t.epoch = s.epoch ∧ t.accept = s.accept ∧
      (s.access.booking = none ∨ permission s = true → s.access.slotTime = none →
        t.access.booking = s.access.booking) ∧ SettledBooking s t ∧ Recalled s t (staleTopics s [k]) .stale ∧
      ((∀ i : SubIndex, ¬((s.accept.table[i]).state = .active ∧ (s.accept.table[i]).recallOption = true ∧
          (s.accept.table[i]).target = .slot k)) ∨ s.session.state ≠ .member ∨ s.access.standing ≠ .normal →
        t.cont = s.cont ∧ t.pubs = s.pubs) ∧
      (∀ i : SubIndex, (s.accept.table[i]).state = .active → (s.accept.table[i]).recallOption = true →
        (s.accept.table[i]).target = .slot k → s.session.state = .member → s.access.standing = .normal →
        (∀ j : PubIndex, (s.pubs.table[j]).state ≠ .free → (s.pubs.table[j]).topic ≠ (s.accept.table[i]).value) →
        (∃ p : RecallPos, (t.cont.recalls[p]).state ≠ .free ∧ (t.cont.recalls[p]).topic = (s.accept.table[i]).value) ∨
        ∀ p : RecallPos, (t.cont.recalls[p]).state ≠ .free) ∧
      (∀ p : RecallPos, (s.cont.recalls[p]).state ≠ .free → t.cont.recalls[p] = s.cont.recalls[p]) ∧
      (∀ p : RecallPos, (s.cont.recalls[p]).state = .free → (t.cont.recalls[p]).state ≠ .free →
        t.cont.recalls[p] =
          { state := .waiting, topic := (t.cont.recalls[p]).topic, origin := .stale, expiries := 0, deadline := none } ∧
        ∃ it ∈ t.pubs.items, it.kind = .recallItem (t.cont.recalls[p]).topic ∧ it.cls = 1 ∧ it.attempts = 0)

/-- PERIODIC_TIMER_EXPIRY: the timer restarts with the full period, and an ACTIVE entry with a value is made pending NEW: an
item is placed where there is none, a waiting REPEAT becomes NEW in its place, and a waiting NEW stays. In flight a REPEAT
becomes NEW with the re-pend mark, and a NEW absorbs the expiry (R126). HOLD_OFF_EXPIRY: the hold-off becomes none and nothing else changes (R122, R123, R130). FRAME_END of a CLEAN
RECALL from a peer for an own ACTIVE topic with a value starts the hold-off and asks for an answer (R129, R130), and one of
a CLEAN UPDATE for an own ACTIVE topic yields it to a lower station and asserts it against a higher one (R131, R132). The
booking follows each of them (R25, R27). -/
def Obligations.PublicationTimersExpire : Prop :=
  (∀ (s : State) (i : PubIndex), s.held = false →
    ((s.pubs.table[i]).periodicTimer.isSome = true →
      ∃ t, exec (.periodicTimerExpiry i) s = .next t ∧
        t = { s with access := { s.access with booking := t.access.booking }, pubs := t.pubs } ∧ SettledBooking s t ∧
        (t.pubs.table[i]).periodicTimer = some ((s.pubs.table[i]).period * 1000) ∧
        (∀ j : PubIndex, j ≠ i → t.pubs.table[j] = s.pubs.table[j]) ∧
        ((s.pubs.table[i]).hasValue = false ∨ (s.pubs.table[i]).item = some .newValue → t.pubs = { s.pubs with
          table := t.pubs.table } ∧
          t.pubs.table[i] = { s.pubs.table[i] with periodicTimer := some ((s.pubs.table[i]).period * 1000) }) ∧
        ((s.pubs.table[i]).state = .active → (s.pubs.table[i]).hasValue = true →
          (s.pubs.table[i]).item = some .repeatValue →
          t.pubs = { s.pubs with table := t.pubs.table } ∧
          ((s.pubs.table[i]).inFlight = false → t.pubs.table[i] = { s.pubs.table[i] with
            periodicTimer := some ((s.pubs.table[i]).period * 1000), item := some .newValue }) ∧
          ((s.pubs.table[i]).inFlight = true → t.pubs.table[i] = { s.pubs.table[i] with
            periodicTimer := some ((s.pubs.table[i]).period * 1000), item := some .newValue, rePend := true })) ∧
        ((s.pubs.table[i]).state = .active → (s.pubs.table[i]).hasValue = true → (s.pubs.table[i]).inFlight = false →
          (s.pubs.table[i]).item = none →
          t.pubs.table[i] = { s.pubs.table[i] with
            periodicTimer := some ((s.pubs.table[i]).period * 1000), item := some .newValue } ∧
          t.pubs.items =
            insertItem { kind := .update i, cls := (s.pubs.table[i]).cls, attempts := 0, placed := s.pubs.placements }
              s.pubs.items)) ∧
    (∃ t, exec (.holdOffExpiry i) s = .next t ∧ t.pubs.table[i] = { s.pubs.table[i] with holdOff := none } ∧
      (∀ j : PubIndex, j ≠ i → t.pubs.table[j] = s.pubs.table[j]) ∧
      t = { s with pubs := { s.pubs with table := t.pubs.table } })) ∧
  ∀ (s : State) (rec : Record) (levels : List LineLevel) (r : Reception) (f : Frame) (topic : Topic),
    ForeignEnd s levels r f → s.session.record = some rec → f.source ≠ rec.station → s.pubs.topicsDiffer →
    (∀ p : RecallPos, (s.cont.recalls[p]).state ≠ .free → (s.cont.recalls[p]).topic ≠ topic) →
    (f.body = .recallFor topic →
      ∃ t, exec (.frameEnd levels) s = .next t ∧ SettledBooking s t ∧
        (s.session.state ≠ .member ∨ (∀ i : PubIndex, (s.pubs.table[i]).state = .active →
            (s.pubs.table[i]).topic = topic → (s.pubs.table[i]).hasValue = false ∨ (s.pubs.table[i]).holdOff.isSome = true) →
          t.pubs = s.pubs) ∧
        ∀ i : PubIndex, s.session.state = .member → (s.pubs.table[i]).state = .active → (s.pubs.table[i]).topic = topic →
          (s.pubs.table[i]).hasValue = true → (s.pubs.table[i]).holdOff = none →
          (∀ j : PubIndex, j ≠ i → t.pubs.table[j] = s.pubs.table[j]) ∧
          ((s.pubs.table[i]).item ≠ none → t.pubs.items = s.pubs.items ∧
            t.pubs.table[i] = { s.pubs.table[i] with holdOff := some (rec.recallHoldOff * 1000) }) ∧
          ((s.pubs.table[i]).item = none →
            t.pubs.items =
              insertItem { kind := .update i, cls := (s.pubs.table[i]).cls, attempts := 0, placed := s.pubs.placements }
                s.pubs.items ∧
            t.pubs.table[i] = { s.pubs.table[i] with
              holdOff := some (rec.recallHoldOff * 1000),
              item := some (if (s.pubs.table[i]).dirty then .newValue else .repeatValue) })) ∧
    (∀ first again seq payload, f.body = .update first again topic seq payload →
      ∃ t, exec (.frameEnd levels) s = .next t ∧ SettledBooking s t ∧
        ((∀ i : PubIndex, (s.pubs.table[i]).state = .active → (s.pubs.table[i]).topic ≠ topic) → t.pubs = s.pubs) ∧
        ∀ i : PubIndex, (s.pubs.table[i]).state = .active → (s.pubs.table[i]).topic = topic →
          (∀ j : PubIndex, j ≠ i → t.pubs.table[j] = s.pubs.table[j]) ∧
          (f.source < rec.station →
            t.pubs.table[i] = { s.pubs.table[i] with
              state := .yielded, yieldedTo := some f.source, item := none, periodicTimer := none, holdOff := none,
              writtenSinceLatch := false, rePend := false } ∧
            t.pubs.items = (s.pubs.items.filter fun it => it.kind != .update i) ∧
            notified s t (.publicationYielded i f.source)) ∧
          (rec.station < f.source →
            notified s t (.conflictObserved i f.source) ∧
            (s.session.state ≠ .member ∨ (s.pubs.table[i]).hasValue = false →
              t.pubs.items = s.pubs.items ∧
              t.pubs.table[i] = { s.pubs.table[i] with conflict := some f.source }) ∧
            (s.session.state = .member → (s.pubs.table[i]).hasValue = true →
              t.pubs.table[i] = { s.pubs.table[i] with conflict := some f.source, item := some .newValue } ∧
              ((s.pubs.table[i]).item ≠ none → t.pubs.items = s.pubs.items) ∧
              ((s.pubs.table[i]).item = none → t.pubs.items =
                insertItem { kind := .update i, cls := (s.pubs.table[i]).cls, attempts := 0, placed := s.pubs.placements }
                  s.pubs.items))))

/-- RECALL_DEADLINE_EXPIRY in SENT or SUPPRESSED: after the first wait the entry waits to send again, with a new item; after
the second it is FREE, with RECALL_DONE(T, UNANSWERED) (R151). FRAME_END of a peer's RECALL suppresses a WAITING entry for
its topic, whose item is removed (R149); one of an UPDATE answers the entry for its topic, with RECALL_DONE(T, ANSWERED)
for origin HOST alone (R150). The booking follows each of them (R25, R27). -/
def Obligations.RecallWaitRunsOut : Prop :=
  (∀ (s : State) (p : RecallPos), s.held = false →
    (s.cont.recalls[p]).state = .sent ∨ (s.cont.recalls[p]).state = .suppressed →
    (s.cont.recalls[p]).deadline.isSome = true →
    ∃ t, exec (.recallDeadlineExpiry p) s = .next t ∧
      t = { s with access := { s.access with booking := t.access.booking }, pubs := t.pubs,
                   cont := { s.cont with recalls := t.cont.recalls }, port := t.port } ∧
      SettledBooking s t ∧
      (∀ p' : RecallPos, p' ≠ p → t.cont.recalls[p'] = s.cont.recalls[p']) ∧
      ((s.cont.recalls[p]).expiries = 0 →
        t.cont.recalls[p] = { s.cont.recalls[p] with state := .waiting, expiries := 1, deadline := none } ∧
        t.port = s.port ∧
        t.pubs.items =
          insertItem { kind := .recallItem (s.cont.recalls[p]).topic, cls := 1, attempts := 0, placed := s.pubs.placements }
            s.pubs.items) ∧
      ((s.cont.recalls[p]).expiries ≠ 0 →
        t.cont.recalls[p] = RecallEntry.initial ∧ t.pubs = s.pubs ∧
        t.port = (postAll s [.recallDone (s.cont.recalls[p]).topic .unanswered]).port)) ∧
  ∀ (s : State) (rec : Record) (levels : List LineLevel) (r : Reception) (f : Frame) (p : RecallPos),
    ForeignEnd s levels r f → s.session.record = some rec → f.source ≠ rec.station → s.cont.recallsFit →
    (s.cont.recalls[p]).state ≠ .free →
    (∀ j : PubIndex, (s.pubs.table[j]).state = .active → (s.pubs.table[j]).topic ≠ (s.cont.recalls[p]).topic) →
    (f.body = .recallFor (s.cont.recalls[p]).topic →
      ∃ t, exec (.frameEnd levels) s = .next t ∧ SettledBooking s t ∧
        (∀ p' : RecallPos, p' ≠ p → t.cont.recalls[p'] = s.cont.recalls[p']) ∧
        ((s.cont.recalls[p]).state = .waiting →
          t.cont.recalls[p] = { s.cont.recalls[p] with state := .suppressed, deadline := some (rec.recallWait * 1000) } ∧
          t.pubs = { s.pubs with
            items := s.pubs.items.filter fun it => it.kind != .recallItem (s.cont.recalls[p]).topic }) ∧
        ((s.cont.recalls[p]).state ≠ .waiting → t.cont.recalls[p] = s.cont.recalls[p] ∧ t.pubs = s.pubs)) ∧
    (∀ first again seq payload, f.body = .update first again (s.cont.recalls[p]).topic seq payload →
      ∃ t, exec (.frameEnd levels) s = .next t ∧ SettledBooking s t ∧
        t.cont.recalls[p] = RecallEntry.initial ∧
        (∀ p' : RecallPos, p' ≠ p → t.cont.recalls[p'] = s.cont.recalls[p']) ∧
        ((s.cont.recalls[p]).state = .waiting → t.pubs = { s.pubs with
          items := s.pubs.items.filter fun it => it.kind != .recallItem (s.cont.recalls[p]).topic }) ∧
        ((s.cont.recalls[p]).state ≠ .waiting → t.pubs = s.pubs) ∧
        ((s.cont.recalls[p]).origin = .host → notified s t (.recallDone (s.cont.recalls[p]).topic .answered)) ∧
        ((s.cont.recalls[p]).origin ≠ .host → unnotified s t fun n => ∃ topic o, n = .recallDone topic o))

/-! ## Transactions (chapter 10) -/

/-- TRANSACTION_BEGIN: the status byte and the kind of answer are captured as SEL falls, and nothing else changes
(R170, R176). -/
def Obligations.SelectFallCapturesTheStatus : Prop :=
  ∀ s : State, s.held = false → s.port.sel = .high →
    ∃ c, exec .transactionBegin s = .next { s with port := { s.port with sel := .low c } } ∧
      c.status = statusByte s ∧ c.showsNotTaken = s.port.lastNotTaken ∧ c.showsMalformed = s.port.lastMalformed ∧
      (∀ r, s.port.state = .responseWaiting r → c.answer = some r) ∧
      ((∀ r, s.port.state ≠ .responseWaiting r) → c.answer = none)

/-- COMMAND_TRANSACTION: the shown flags are cleared; a well-formed one (whole bytes = 2 + length byte, no trailing bits) is
taken into the port in READY, and otherwise not taken, with LAST_NOT_TAKEN set; a malformed one is discarded in every port
state, with LAST_MALFORMED set. Whether each flag was set since the SEL rise of the command taken last is kept beside it: cleared
when a command is taken, set with the flag, and cleared when it is shown (R187). Nothing outside the port changes (R170,
R172, R173, R189). That the shown flags are cleared
when SEL rises, and that a transaction is judged as a whole then, is the model's choice (log 12, log 21). -/
def Obligations.CommandTransactionIsJudged : Prop :=
  ∀ (s : State) (c : Captured) (bytes : List Byte) (trailing : Nat) (code : Byte) (rest : List Byte),
    s.port.sel = .low c → bytes = code :: rest → code ≠ 0 →
    ∃ t, exec (.commandTransaction bytes trailing) s = .next t ∧
      t = { s with port := { s.port with
        sel := .high, sdo := c.status :: List.replicate rest.length 0, state := t.port.state,
        lastNotTaken := t.port.lastNotTaken, notTakenSince := t.port.notTakenSince,
        lastMalformed := t.port.lastMalformed, malformedSince := t.port.malformedSince } } ∧
      (∀ len args, rest = len :: args → args.length = len.toNat → trailing = 0 →
        (s.port.state = .ready → t.port.state = .executing code args ∧
          t.port.notTakenSince = false ∧ t.port.malformedSince = false ∧
          t.port.lastNotTaken = (s.port.lastNotTaken && !c.showsNotTaken) ∧
          t.port.lastMalformed = (s.port.lastMalformed && !c.showsMalformed)) ∧
        (s.port.state ≠ .ready → t.port.state = s.port.state ∧ t.port.lastNotTaken = true ∧
          t.port.notTakenSince = true ∧ t.port.malformedSince = (s.port.malformedSince && !c.showsMalformed) ∧
          t.port.lastMalformed = (s.port.lastMalformed && !c.showsMalformed))) ∧
      ((∀ len args, rest = len :: args → args.length ≠ len.toNat) ∨ trailing ≠ 0 →
        t.port.state = s.port.state ∧ t.port.lastMalformed = true ∧ t.port.malformedSince = true ∧
        t.port.notTakenSince = (s.port.notTakenSince && !c.showsNotTaken) ∧
        t.port.lastNotTaken = (s.port.lastNotTaken && !c.showsNotTaken))

/-- FETCH_TRANSACTION: the status byte, then the waiting response or 0xFF and 0x00, then filler, as far as clocked; the port
becomes READY exactly when the whole response was clocked. SHORT_TRANSACTION: nothing but SEL changes
(R169, R175, R176, R189). That the shown flags are cleared when SEL rises, that the bytes sent are kept in `sdo`, and that the
bytes behind 0xFF and 0x00 are 0, is the model's choice (log 12, log 21, log 28). -/
def Obligations.FetchShiftsOutTheResponse : Prop :=
  (∀ (s : State) (c : Captured) (whole trailing : Nat), s.port.sel = .low c →
    (0 < whole →
      ∃ t, exec (.fetchTransaction whole trailing) s = .next t ∧
        t = { s with port := { s.port with
          sel := .high, sdo := t.port.sdo, state := t.port.state,
          lastNotTaken := (s.port.lastNotTaken && !c.showsNotTaken),
          notTakenSince := (s.port.notTakenSince && !c.showsNotTaken),
          lastMalformed := (s.port.lastMalformed && !c.showsMalformed),
          malformedSince := (s.port.malformedSince && !c.showsMalformed) } } ∧
        (∀ r, c.answer = some r →
          t.port.sdo = (c.status :: r.code.code :: byteOf r.data.length :: r.data ++ List.replicate whole 0).take whole ∧
          (3 + r.data.length ≤ whole → t.port.state = .ready) ∧
          (whole < 3 + r.data.length → t.port.state = s.port.state)) ∧
        (c.answer = none →
          t.port.sdo = (c.status :: 0xFF :: 0x00 :: List.replicate whole 0).take whole ∧ t.port.state = s.port.state)) ∧
    exec (.shortTransaction trailing) s = .next { s with port := { s.port with sel := .high } }) ∧
  [StatusCode.ok, .pending, .empty, .notFound, .notConfigured, .wrongState, .badArgument, .inUse, .duplicateTopic,
      .yielded, .ownTopic, .listFull, .notOpen, .alreadyOpen, .unknownCommand].map StatusCode.code =
    [0x00, 0x01, 0x02, 0x03, 0x04, 0x05, 0x06, 0x07, 0x08, 0x09, 0x0A, 0x0B, 0x0C, 0x0D, 0x0E]

/-- The status byte: bit 7 is 1 and exactly one of bits 0 to 2 is set, the one of the port state; bits 3 to 6 mirror ATTN,
the lost flag and the two transaction flags (R170, 12.4). ATTN is asserted exactly outside reset while a notice is queued
or an enabled level condition holds (R184); the ten conditions are the watermarks of the eight queues (R92), a changed
slot (R111) and a FILLED bank (R164), in the places of 12.3 (R182). -/
def Obligations.StatusByteNamesThePortState : Prop :=
  ∀ s : State,
    (statusByte s).getLsbD 7 = true ∧
    ((statusByte s).getLsbD 0 = true ↔ s.port.state = .ready) ∧
    ((statusByte s).getLsbD 1 = true ↔ ∃ code args, s.port.state = .executing code args) ∧
    ((statusByte s).getLsbD 2 = true ↔ ∃ r, s.port.state = .responseWaiting r) ∧
    (statusByte s).getLsbD 3 = attn s ∧ (statusByte s).getLsbD 4 = s.port.lost ∧
    (statusByte s).getLsbD 5 = s.port.lastNotTaken ∧ (statusByte s).getLsbD 6 = s.port.lastMalformed ∧
    (attn s = true ↔ s.held = false ∧
      (s.port.notices ≠ [] ∨ ∃ n, n < 10 ∧ (rawConditions s).getLsbD n = true ∧ s.port.mask.getLsbD n = true)) ∧
    (∀ q : QueueNo, (rawConditions s).getLsbD q.val = true ↔
      ∃ r, s.session.record = some r ∧ r.quotas[q] ≠ 0 ∧ r.watermarks[q] ≤ (s.store.queues[q]).records.length) ∧
    ((rawConditions s).getLsbD 8 = true ↔ ∃ k : SlotNo, (s.store.slots[k]).changed = true) ∧
    ((rawConditions s).getLsbD 9 = true ↔ ∃ b : Fin 2, (s.epoch.banks[b]).state = .filled)

/-! ## Host commands -/

/-- A command refused with any status code changes no state in the station: the response is all that changes (R174, R177). A
wrong number of argument bytes is BAD_ARGUMENT before anything else, for every command with a fixed number (R174, R190,
12.5). -/
def Obligations.RefusedCommandChangesNothing : Prop :=
  (∀ (c : Instr) (s t : State) (r : Response), takesCommand c → exec c s = .next t → t.port.state = .responseWaiting r →
    r.code ≠ .ok → r.code ≠ .pending → t = answered s r ∧ (r.data = [] ∨ t = s)) ∧
  ∀ x ∈ [((0x01 : Byte), 27), (0x02, 0), (0x03, 0), (0x04, 0), (0x05, 0), (0x06, 2), (0x07, 0), (0x10, 1), (0x20, 11),
      (0x21, 1), (0x22, 1), (0x30, 1), (0x31, 1), (0x32, 1), (0x33, 2), (0x40, 1), (0x41, 0), (0x52, 1), (0x53, 1),
      (0x60, 2), (0x70, 0), (0x71, 0), (0x72, 1), (0x73, 0)],
    ∀ (s : State) (args : List Byte), args.length ≠ x.2 → Executes s x.1 args →
      exec (commandOf x.1 args) s = .next (answered s ⟨.badArgument, []⟩)

/-- STATUS (R178, 12.7), with the codes of station state and standing (12.3); a flags byte has its first flag in bit 0, and a
field of several bytes its high byte first (R189). -/
def Obligations.StatusReportsTheStation : Prop :=
  ([StationState.offline, .listening, .claiming, .member, .leaving, .refused].map StationState.code = [0, 1, 2, 3, 4, 5] ∧
    [Standing.normal, .caution, .quiet].map Standing.code = [0, 1, 2]) ∧
  (∀ (flags : List Bool) (n : Nat), flags.length ≤ 8 → (flagByte flags).getLsbD n = flags.getD n false) ∧
  (∀ n : Nat, (byteOf n).toNat = n % 256) ∧
  (∀ a b c d : Byte, bytes16 (a ++ b).toNat = [a, b] ∧ bytes32 (a ++ b ++ c ++ d).toNat = [a, b, c, d]) ∧
  ∀ s : State, Executes s 0x04 [] →
    exec (.status []) s = .next (answered s ⟨.ok,
        [flagByte [s.session.record.isSome, s.session.frozen], s.session.state.code, s.access.standing.code,
       byteOf s.access.score]
      ++ (match s.epoch.lastSeen with | none => [0xFF, 0xFF] | some e => [0x00, e])
      ++ [byteOf s.store.free, byteOf s.port.notices.length, flagByte [s.port.lost]]
      ++ bytes16 (rawConditions s).toNat ++ bytes16 s.port.mask.toNat⟩)

/-- READ ROSTER (R60, 12.7), with the codes of the entry state (12.3). The last clause rests on the invariant that every step
keeps (R56). -/
def Obligations.ReadRosterReturnsTheEntry : Prop :=
  [RosterState.absent, .present, .silent, .selfEntry].map RosterState.code = [0, 1, 2, 3] ∧
  ∀ (s : State) (b : Byte), Executes s 0x10 [b] →
    (∀ x : Station, b.toNat = x.val →
      exec (.readRoster [b]) s = .next (answered s ⟨.ok,
        [(s.roster[x]).state.code,
         flagByte [(s.roster[x]).tag.isSome, (s.roster[x]).caution, (s.roster[x]).lastEpoch.isSome]]
        ++ bytes32 ((s.roster[x]).tag.getD 0).toNat
        ++ (s.roster[x]).lastEpoch.getD 0 :: bytes32 (s.roster[x]).lastHeard.toNat⟩)) ∧
    (31 < b.toNat → exec (.readRoster [b]) s = .next (answered s ⟨.badArgument, []⟩)) ∧
    (rosterFits s → s.session.state = .offline → ∀ x : Station, (s.roster[x]).state = .absent)

/-- READ SUBSCRIPTION returns the entry and changes nothing (R67, 12.7), with the codes of the entry state (12.3). -/
def Obligations.ReadSubscriptionReturnsTheEntry : Prop :=
  [SubState.free, .active, .withdrawing].map SubState.code = [0, 1, 2] ∧
  ∀ (s : State) (b : Byte), Executes s 0x22 [b] →
    (∀ i : SubIndex, b.toNat = i.val →
      exec (.readSubscription [b]) s = .next (answered s ⟨.ok,
        (s.accept.table[i]).state.code :: bytes16 (s.accept.table[i]).value.toNat
        ++ bytes16 (s.accept.table[i]).mask.toNat
        ++ (match (s.accept.table[i]).source with | none => 0xFF | some x => byteOf x.val)
        :: (match (s.accept.table[i]).target with | .queue q => [0, byteOf q.val] | .slot k => [1, byteOf k.val])
        ++ flagByte [(s.accept.table[i]).keepOn, (s.accept.table[i]).spill, (s.accept.table[i]).acceptSelf,
             (s.accept.table[i]).track, (s.accept.table[i]).recallOption]
        :: bytes16 (s.accept.table[i]).limit ++ [byteOf (s.accept.table[i]).engaged.toNat]⟩)) ∧
    (31 < b.toNat → exec (.readSubscription [b]) s = .next (answered s ⟨.badArgument, []⟩))

/-- READ PUBLICATION (R121, 12.7), with the codes of the entry state and the mode (12.3). -/
def Obligations.ReadPublicationReturnsTheEntry : Prop :=
  ([PubState.free, .active, .withdrawing, .yielded].map PubState.code = [0, 1, 2, 3] ∧
    [PubMode.periodic, .onWrite, .both].map PubMode.code = [1, 2, 3]) ∧
  ∀ (s : State) (b : Byte), Executes s 0x53 [b] →
    (∀ i : PubIndex, b.toNat = i.val →
      exec (.readPublication [b]) s = .next (answered s ⟨.ok,
        (s.pubs.table[i]).state.code :: bytes16 (s.pubs.table[i]).topic.toNat
        ++ byteOf (s.pubs.table[i]).cls.val :: (s.pubs.table[i]).mode.code :: bytes16 (s.pubs.table[i]).period
        ++ [flagByte [(s.pubs.table[i]).hasValue, (s.pubs.table[i]).dirty, (s.pubs.table[i]).firstArmed,
              (s.pubs.table[i]).inFlight, (s.pubs.table[i]).periodicTimer.isSome, (s.pubs.table[i]).holdOff.isSome],
            (match (s.pubs.table[i]).item with | none => 0 | some .newValue => 1 | some .repeatValue => 2),
            (s.pubs.table[i]).nextSeq,
            (match (s.pubs.table[i]).yieldedTo with | none => 0xFF | some x => byteOf x.val),
            (match (s.pubs.table[i]).conflict with | none => 0xFF | some x => byteOf x.val),
            byteOf (s.pubs.table[i]).payload.length]
        ++ (s.pubs.table[i]).payload⟩)) ∧
    (31 < b.toNat → exec (.readPublication [b]) s = .next (answered s ⟨.badArgument, []⟩))

/-- LIST CHANGED SLOTS (R113): the numbers are ascending and are exactly those of the slots whose changed flag is set. -/
def Obligations.ListChangedSlotsNamesThemInOrder : Prop :=
  ∀ s : State, Executes s 0x41 [] →
    ∃ ks : List SlotNo, exec (.listChangedSlots []) s = .next (answered s ⟨.ok,
        byteOf ks.length :: ks.map fun k => byteOf k.val⟩) ∧
      ks.Pairwise (· < ·) ∧ ks.length ≤ 64 ∧ ∀ k : SlotNo, k ∈ ks ↔ (s.store.slots[k]).changed = true

/-- POP, PEEK, FLUSH and QUEUE STATUS with their refusals: POP and PEEK answer the oldest record or EMPTY, FLUSH the number
of records it removes, QUEUE STATUS the queue's values as they stood; a queue number above 7, and but for QUEUE STATUS a
quota of 0, is BAD_ARGUMENT (R95 to R98). The queue record and the answer of QUEUE STATUS have the layouts of 12.7 and 12.8. -/
def Obligations.QueueCommandsActOnTheQueue : Prop :=
  (∀ (s : State) (q : QueueNo) (r : QueueRecord) (t1 t0 : Byte), r.topic = t1 ++ t0 →
    r.bytes = t1 :: t0 :: byteOf r.source.val :: flagByte [r.first, r.again, r.selfMade, r.gap] :: byteOf r.missing :: r.seq
      :: byteOf r.entry.val :: (bytes32 r.stamp.toNat ++ byteOf r.payload.length :: r.payload) ∧
    queueStatusBytes s q =
      [byteOf (s.store.queues[q]).records.length,
       flagByte [(s.store.queues[q]).reserved, (s.store.queues[q]).overflow],
       byteOf (match s.session.record with | none => 0 | some c => c.quotas[q]),
       byteOf (match s.session.record with | none => 0 | some c => if c.quotas[q] = 0 then 0 else c.watermarks[q]),
       byteOf (s.store.queues[q]).dropped,
       (match (s.store.queues[q]).lastReason with | none => 0 | some .quota => 1 | some .pool => 2)]) ∧
  ∀ (s : State) (b : Byte),
    (7 < b.toNat ∨ (∃ q : QueueNo, b.toNat = q.val ∧ quotaOf s q = 0) →
      (Executes s 0x30 [b] → exec (.pop [b]) s = .next (answered s ⟨.badArgument, []⟩)) ∧
      (Executes s 0x31 [b] → exec (.peek [b]) s = .next (answered s ⟨.badArgument, []⟩)) ∧
      (Executes s 0x32 [b] → exec (.flush [b]) s = .next (answered s ⟨.badArgument, []⟩))) ∧
    (7 < b.toNat → ∀ clear, Executes s 0x33 [b, clear] →
      exec (.queueStatus [b, clear]) s = .next (answered s ⟨.badArgument, []⟩)) ∧
    ∀ q : QueueNo, b.toNat = q.val →
      (Executes s 0x30 [b] → quotaOf s q ≠ 0 →
        ((s.store.queues[q]).records = [] → exec (.pop [b]) s = .next (answered s ⟨.empty, []⟩)) ∧
        ∀ r rest, (s.store.queues[q]).records = r :: rest →
          ∃ t, exec (.pop [b]) s = .next t ∧
            t = answered { s with store := { s.store with free := s.store.free + 1, queues := t.store.queues } }
              ⟨.ok, r.bytes⟩ ∧
            t.store.queues[q] = { s.store.queues[q] with records := rest } ∧
            ∀ q' : QueueNo, q' ≠ q → t.store.queues[q'] = s.store.queues[q']) ∧
      (Executes s 0x31 [b] → quotaOf s q ≠ 0 →
        ((s.store.queues[q]).records = [] → exec (.peek [b]) s = .next (answered s ⟨.empty, []⟩)) ∧
        ∀ r rest, (s.store.queues[q]).records = r :: rest →
          exec (.peek [b]) s = .next (answered s ⟨.ok, r.bytes⟩)) ∧
      (Executes s 0x32 [b] → quotaOf s q ≠ 0 →
        ∃ t, exec (.flush [b]) s = .next t ∧
          t = answered { s with store := { s.store with
              free := s.store.free + (s.store.queues[q]).records.length, queues := t.store.queues } }
            ⟨.ok, [byteOf (s.store.queues[q]).records.length]⟩ ∧
          t.store.queues[q] = { s.store.queues[q] with records := [] } ∧
          ∀ q' : QueueNo, q' ≠ q → t.store.queues[q'] = s.store.queues[q']) ∧
      (Executes s 0x33 [b, 1] →
        ∃ t, exec (.queueStatus [b, 1]) s = .next t ∧
          t = answered { s with store := { s.store with queues := t.store.queues } }
            ⟨.ok, queueStatusBytes s q⟩ ∧
          t.store.queues[q] = { s.store.queues[q] with overflow := false, dropped := 0 } ∧
          ∀ q' : QueueNo, q' ≠ q → t.store.queues[q'] = s.store.queues[q']) ∧
      (Executes s 0x33 [b, 0] →
        exec (.queueStatus [b, 0]) s = .next (answered s ⟨.ok, queueStatusBytes s q⟩))

/-- READ SLOT returns the slot as it stood and clears its changed flag, and nothing else changes; a slot number above 63 is
BAD_ARGUMENT. By the invariant that every step keeps, an EMPTY slot holds its initial contents (R112). The slot record has the
layout of 12.8. -/
def Obligations.ReadSlotClearsTheChangedFlag : Prop :=
  (∀ k : Slot, k.bytes =
    (match k.state with | .empty => 0 | .fresh => 1 | .stale => 2)
    :: (match k.reason with | none => 0 | some .freshness => 1 | some .peerSilent => 2 | some .left => 3)
    :: flagByte [k.contents.first, k.contents.again, k.contents.selfMade, k.contents.gap, k.changed]
    :: (bytes16 k.limit ++ bytes16 k.contents.topic.toNat
      ++ byteOf k.contents.source.val :: k.contents.seq :: byteOf k.contents.missing
      :: (bytes32 k.contents.stamp.toNat ++ byteOf k.contents.payload.length :: k.contents.payload))) ∧
  ∀ (s : State) (b : Byte), Executes s 0x40 [b] →
    (63 < b.toNat → exec (.readSlot [b]) s = .next (answered s ⟨.badArgument, []⟩)) ∧
    ∀ k : SlotNo, b.toNat = k.val →
      ∃ t, exec (.readSlot [b]) s = .next t ∧
        t = answered { s with store := { s.store with slots := t.store.slots } } ⟨.ok, (s.store.slots[k]).bytes⟩ ∧
        t.store.slots[k] = { s.store.slots[k] with changed := false } ∧
        (∀ j : SlotNo, j ≠ k → t.store.slots[j] = s.store.slots[j]) ∧
        (s.store.slotsFit → (s.store.slots[k]).state = .empty → (s.store.slots[k]).contents = Contents.initial)

/-- SNAPSHOT OPEN makes the FILLED bank of the latest-capture mark HELD, and answers ALREADY_OPEN while a bank is HELD and EMPTY
with none FILLED. SNAPSHOT READ returns a copy of the HELD bank, SNAPSHOT RELEASE empties it and moves the mark, and with no
bank HELD both answer NOT_OPEN; a slot number above 63 is BAD_ARGUMENT (R155, R164, R165). The slot copy has the layout of
12.8. -/
def Obligations.SnapshotCommandsUseTheBanks : Prop :=
  (∀ k : SlotCopy, k.bytes =
    (match k.state with | .empty => 0 | .fresh => 1 | .stale => 2)
    :: (match k.reason with | none => 0 | some .freshness => 1 | some .peerSilent => 2 | some .left => 3)
    :: flagByte [k.contents.first, k.contents.again, k.contents.selfMade, k.contents.gap]
    :: (bytes16 k.contents.topic.toNat
      ++ byteOf k.contents.source.val :: k.contents.seq :: byteOf k.contents.missing
      :: (bytes32 k.contents.stamp.toNat ++ byteOf k.contents.payload.length :: k.contents.payload))) ∧
  (∀ s : State,
    (Executes s 0x71 [] →
      ((∃ x : Fin 2, (s.epoch.banks[x]).state = .held) →
        exec (.snapshotOpen []) s = .next (answered s ⟨.alreadyOpen, []⟩)) ∧
      ((∀ x : Fin 2, (s.epoch.banks[x]).state = .empty) →
        exec (.snapshotOpen []) s = .next (answered s ⟨.empty, []⟩))) ∧
    (∀ n : Byte, Executes s 0x72 [n] →
      (63 < n.toNat → exec (.snapshotRead [n]) s = .next (answered s ⟨.badArgument, []⟩)) ∧
      (n.toNat ≤ 63 → (∀ x : Fin 2, (s.epoch.banks[x]).state ≠ .held) →
        exec (.snapshotRead [n]) s = .next (answered s ⟨.notOpen, []⟩))) ∧
    (Executes s 0x73 [] → (∀ x : Fin 2, (s.epoch.banks[x]).state ≠ .held) →
      exec (.snapshotRelease []) s = .next (answered s ⟨.notOpen, []⟩))) ∧
  ∀ (s : State) (b : Fin 2),
    (Executes s 0x71 [] → (∀ x : Fin 2, (s.epoch.banks[x]).state ≠ .held) → s.epoch.latest = some b →
      (s.epoch.banks[b]).state = .filled →
      ∃ t, exec (.snapshotOpen []) s = .next t ∧
        t = answered { s with epoch := { s.epoch with banks := t.epoch.banks } }
          ⟨.ok, (s.epoch.banks[b]).number :: byteOf (s.epoch.banks[b]).source.val
              :: bytes32 (s.epoch.banks[b]).stamp.toNat⟩ ∧
        t.epoch.banks[b] = { s.epoch.banks[b] with state := .held } ∧
        ∀ x : Fin 2, x ≠ b → t.epoch.banks[x] = s.epoch.banks[x]) ∧
    (∀ (n : Byte) (k : SlotNo), n.toNat = k.val → Executes s 0x72 [n] → (s.epoch.banks[b]).state = .held →
      (∀ x : Fin 2, x ≠ b → (s.epoch.banks[x]).state ≠ .held) →
      exec (.snapshotRead [n]) s = .next (answered s ⟨.ok, ((s.epoch.banks[b]).copies[k]).bytes⟩)) ∧
    (Executes s 0x73 [] → (s.epoch.banks[b]).state = .held → (∀ x : Fin 2, x ≠ b → (s.epoch.banks[x]).state ≠ .held) →
      ∃ t, exec (.snapshotRelease []) s = .next t ∧
        t = answered { s with epoch := { s.epoch with banks := t.epoch.banks, latest := t.epoch.latest } }
          ⟨.ok, []⟩ ∧
        t.epoch.banks[b] = Bank.initial ∧ (∀ x : Fin 2, x ≠ b → t.epoch.banks[x] = s.epoch.banks[x]) ∧
        (s.epoch.latest ≠ some b → t.epoch.latest = s.epoch.latest) ∧
        (s.epoch.latest = some b → ∀ x : Fin 2, x ≠ b →
          ((s.epoch.banks[x]).state = .filled → t.epoch.latest = some x) ∧
          ((s.epoch.banks[x]).state ≠ .filled → t.epoch.latest = none)))

/-- SUBSCRIBE to a FREE index with arguments in range writes the entry, with a queue target or a slot target, and hands the
limit to the slot, where a FRESH one gets a new deadline; with RECALL it asks for a recall of origin FILL. Every other
SUBSCRIBE is refused: an index above 31 and an argument out of range BAD_ARGUMENT, an index in use IN_USE (R63, R64, R65, R105,
R147). UNSUBSCRIBE frees an entry that is not engaged and makes an engaged one WITHDRAWING; a FREE one is NOT_FOUND (R66). The
booking follows (R25, R27). -/
def Obligations.SubscriptionsAreMadeAndRemoved : Prop :=
  (∀ (s : State) (b v1 v0 m1 m0 src kind num opt l1 l0 : Byte),
    Executes s 0x20 [b, v1, v0, m1, m0, src, kind, num, opt, l1, l0] →
    (31 < b.toNat → exec (.subscribe [b, v1, v0, m1, m0, src, kind, num, opt, l1, l0]) s =
      .next (answered s ⟨.badArgument, []⟩)) ∧
    ∀ i : SubIndex, b.toNat = i.val →
      ((s.accept.table[i]).state ≠ .free → exec (.subscribe [b, v1, v0, m1, m0, src, kind, num, opt, l1, l0]) s =
        .next (answered s ⟨.inUse, []⟩)) ∧
      ((s.accept.table[i]).state = .free →
        (src ≠ 0xFF ∧ 31 < src.toNat) ∨ 1 < kind.toNat ∨ (kind = 0 ∧ 7 < num.toNat) ∨ (kind = 1 ∧ 63 < num.toNat) ∨
          (kind = 0 ∧ ∃ q : QueueNo, num.toNat = q.val ∧ ∀ r, s.session.record = some r → r.quotas[q] = 0) ∨
          (kind = 0 ∧ (l1 ++ l0).toNat ≠ 0) ∨
          (opt.getLsbD 4 = true ∧ (kind = 0 ∨ (m1 ++ m0).toNat ≠ 0xFFFF)) ∨ 31 < opt.toNat →
        exec (.subscribe [b, v1, v0, m1, m0, src, kind, num, opt, l1, l0]) s =
          .next (answered s ⟨.badArgument, []⟩)) ∧
      ((s.accept.table[i]).state = .free → src = 0xFF ∨ src.toNat < 32 → opt.toNat < 32 →
        (∀ (q : QueueNo) (r : Record), kind = 0 → num.toNat = q.val → s.session.record = some r → r.quotas[q] ≠ 0 →
          (l1 ++ l0).toNat = 0 → opt.getLsbD 4 = false →
          ∃ t, exec (.subscribe [b, v1, v0, m1, m0, src, kind, num, opt, l1, l0]) s = .next t ∧
            t = answered { s with accept := { s.accept with table := t.accept.table },
                                  access := { s.access with booking := t.access.booking } } ⟨.ok, []⟩ ∧
            SettledBooking s t ∧
            t.accept.table[i] =
              { state := .active, value := v1 ++ v0, mask := m1 ++ m0,
                source := if src = 0xFF then none else some (Fin.ofNat 32 src.toNat), target := .queue q,
                keepOn := opt.getLsbD 0, spill := opt.getLsbD 1, acceptSelf := opt.getLsbD 2, track := opt.getLsbD 3,
                recallOption := false, limit := 0, engaged := false } ∧
            ∀ j : SubIndex, j ≠ i → t.accept.table[j] = s.accept.table[j]) ∧
        ∀ k : SlotNo, kind = 1 → num.toNat = k.val → (opt.getLsbD 4 = true → (m1 ++ m0).toNat = 0xFFFF) →
          ∃ t, exec (.subscribe [b, v1, v0, m1, m0, src, kind, num, opt, l1, l0]) s = .next t ∧
            t = answered { s with accept := { s.accept with table := t.accept.table },
                                  access := { s.access with booking := t.access.booking },
                                  store := { s.store with slots := t.store.slots },
                                  pubs := { s.pubs with items := t.pubs.items, placements := t.pubs.placements },
                                  cont := { s.cont with recalls := t.cont.recalls } } ⟨.ok, []⟩ ∧
            SettledBooking s t ∧
            t.accept.table[i] =
              { state := .active, value := v1 ++ v0, mask := m1 ++ m0,
                source := if src = 0xFF then none else some (Fin.ofNat 32 src.toNat), target := .slot k,
                keepOn := opt.getLsbD 0, spill := opt.getLsbD 1, acceptSelf := opt.getLsbD 2, track := opt.getLsbD 3,
                recallOption := opt.getLsbD 4, limit := (l1 ++ l0).toNat, engaged := false } ∧
            (∀ j : SubIndex, j ≠ i → t.accept.table[j] = s.accept.table[j]) ∧
            ((s.store.slots[k]).state = .fresh → t.store.slots[k] = { s.store.slots[k] with
              limit := (l1 ++ l0).toNat,
              deadline := if (l1 ++ l0).toNat = 0 then none else some ((l1 ++ l0).toNat * 1000) }) ∧
            ((s.store.slots[k]).state ≠ .fresh →
              t.store.slots[k] = { s.store.slots[k] with limit := (l1 ++ l0).toNat }) ∧
            (∀ j : SlotNo, j ≠ k → t.store.slots[j] = s.store.slots[j]) ∧
            (opt.getLsbD 4 = false → t.cont = s.cont ∧ t.pubs = s.pubs) ∧
            (opt.getLsbD 4 = true → Recalled s t [v1 ++ v0] .fill))) ∧
  ∀ (s : State) (b : Byte), Executes s 0x21 [b] →
    (31 < b.toNat → exec (.unsubscribe [b]) s = .next (answered s ⟨.badArgument, []⟩)) ∧
    ∀ i : SubIndex, b.toNat = i.val →
      ((s.accept.table[i]).state = .free → exec (.unsubscribe [b]) s = .next (answered s ⟨.notFound, []⟩)) ∧
      ((s.accept.table[i]).state = .withdrawing → exec (.unsubscribe [b]) s = .next (answered s ⟨.ok, []⟩)) ∧
      ((s.accept.table[i]).state = .active →
        ∃ t, exec (.unsubscribe [b]) s = .next t ∧
          t = answered { s with accept := { s.accept with table := t.accept.table } } ⟨.ok, []⟩ ∧
          ((s.accept.table[i]).engaged = false → t.accept.table[i] = SubEntry.initial) ∧
          ((s.accept.table[i]).engaged = true →
            t.accept.table[i] = { s.accept.table[i] with state := .withdrawing }) ∧
          ∀ j : SubIndex, j ≠ i → t.accept.table[j] = s.accept.table[j])

/-- DECLARE at a FREE index, with a value or without, for a topic no other entry holds: the entry is ACTIVE and numbers from 0
with FIRST armed; in MEMBER an entry with a value is pending NEW and, in mode PERIODIC or BOTH, the timer runs; elsewhere it
only stands in the table (R118, R122), and the booking follows (R25, R27). Every other DECLARE is refused: a wrong length is
BAD_ARGUMENT before anything else (R190), and then the first of the answers of R118 that applies is given. -/
def Obligations.DeclareMakesAPublication : Prop :=
  (∀ (s : State) (args : List Byte), Executes s 0x50 args →
    args.length < 7 ∨ (∃ b t1 t0 cls mode p1 p0 n v, args = b :: t1 :: t0 :: cls :: mode :: p1 :: p0 :: n :: v ∧
      (v.length ≠ n.toNat ∨ 32 < n.toNat)) →
    exec (.declare args) s = .next (answered s ⟨.badArgument, []⟩)) ∧
  ∀ (s : State) (b t1 t0 cls mode p1 p0 : Byte) (tail : List Byte) (value : Option (List Byte)),
    (value = none ∧ tail = []) ∨ (∃ v, value = some v ∧ v.length ≤ 32 ∧ tail = byteOf v.length :: v) →
    Executes s 0x50 (b :: t1 :: t0 :: cls :: mode :: p1 :: p0 :: tail) →
    (31 < b.toNat → exec (.declare (b :: t1 :: t0 :: cls :: mode :: p1 :: p0 :: tail)) s =
      .next (answered s ⟨.badArgument, []⟩)) ∧
    ∀ i : PubIndex, b.toNat = i.val →
      ((s.pubs.table[i]).state ≠ .free → exec (.declare (b :: t1 :: t0 :: cls :: mode :: p1 :: p0 :: tail)) s =
        .next (answered s ⟨.inUse, []⟩)) ∧
      ((s.pubs.table[i]).state = .free →
        cls.toNat = 0 ∨ 6 < cls.toNat ∨ mode.toNat = 0 ∨ 3 < mode.toNat ∨ (p1 ++ p0).toNat = 0 →
        exec (.declare (b :: t1 :: t0 :: cls :: mode :: p1 :: p0 :: tail)) s = .next (answered s ⟨.badArgument, []⟩)) ∧
      ∀ (c : FrameClass) (m : PubMode), (s.pubs.table[i]).state = .free →
        cls.toNat = c.val → 1 ≤ c.val → c.val ≤ 6 →
        (mode = 1 ∧ m = .periodic) ∨ (mode = 2 ∧ m = .onWrite) ∨ (mode = 3 ∧ m = .both) → (p1 ++ p0).toNat ≠ 0 →
        (publishes s (t1 ++ t0) → exec (.declare (b :: t1 :: t0 :: cls :: mode :: p1 :: p0 :: tail)) s =
          .next (answered s ⟨.duplicateTopic, []⟩)) ∧
        (¬publishes s (t1 ++ t0) →
          ∃ t, exec (.declare (b :: t1 :: t0 :: cls :: mode :: p1 :: p0 :: tail)) s = .next t ∧
            t = answered { s with pubs := t.pubs, access := { s.access with booking := t.access.booking } } ⟨.ok, []⟩ ∧
            (∀ j : PubIndex, j ≠ i → t.pubs.table[j] = s.pubs.table[j]) ∧
            t.pubs.table[i] =
              { state := .active, topic := t1 ++ t0, cls := c, mode := m, period := (p1 ++ p0).toNat,
                hasValue := value.isSome, payload := value.getD [], dirty := value.isSome, nextSeq := 0,
                firstArmed := true,
                item := if s.session.state = .member ∧ value.isSome = true then some .newValue else none,
                inFlight := false, writtenSinceLatch := false, rePend := false,
                periodicTimer :=
                  if s.session.state = .member ∧ m ≠ .onWrite then some ((p1 ++ p0).toNat * 1000) else none,
                holdOff := none, yieldedTo := none, conflict := none } ∧
            (s.session.state = .member → value.isSome = true → t.pubs.items =
              insertItem { kind := .update i, cls := c, attempts := 0, placed := s.pubs.placements } s.pubs.items) ∧
            (s.session.state ≠ .member ∨ value = none → t.pubs.items = s.pubs.items) ∧
            (s.session.state = .member → SettledBooking s t) ∧ (s.session.state ≠ .member → t.access = s.access))

/-- WRITE VALUE to an ACTIVE entry replaces the value. With its item not in flight it makes the entry pending NEW in mode
ON_WRITE or BOTH in MEMBER or LEAVING, and a waiting REPEAT becomes NEW in every mode; with the item in flight it is noted
as written since the latch, and in the same modes and states marks the entry to be sent again; a FREE or WITHDRAWING entry
is WRONG_STATE and a YIELDED one YIELDED (R119, R122, R126). WITHDRAW of an ACTIVE entry removes its waiting item and frees it,
or makes it WITHDRAWING while it is in flight; a YIELDED one is freed, and a FREE one NOT_FOUND (R120). An index above 31 is
BAD_ARGUMENT in both, and so is a write of a wrong length (R190). The booking follows a write (R25, R27). -/
def Obligations.PublicationsAreWrittenAndWithdrawn : Prop :=
  (∀ (s : State) (args : List Byte), Executes s 0x51 args →
    args.length < 2 ∨ (∃ b n v, args = b :: n :: v ∧ (v.length ≠ n.toNat ∨ 32 < n.toNat)) →
    exec (.writeValue args) s = .next (answered s ⟨.badArgument, []⟩)) ∧
  (∀ (s : State) (b : Byte) (value : List Byte), value.length ≤ 32 → Executes s 0x51 (b :: byteOf value.length :: value) →
    (31 < b.toNat → exec (.writeValue (b :: byteOf value.length :: value)) s = .next (answered s ⟨.badArgument, []⟩)) ∧
    ∀ i : PubIndex, b.toNat = i.val →
      ((s.pubs.table[i]).state = .free ∨ (s.pubs.table[i]).state = .withdrawing →
        exec (.writeValue (b :: byteOf value.length :: value)) s = .next (answered s ⟨.wrongState, []⟩)) ∧
      ((s.pubs.table[i]).state = .yielded →
        exec (.writeValue (b :: byteOf value.length :: value)) s = .next (answered s ⟨.yielded, []⟩)) ∧
      ((s.pubs.table[i]).state = .active →
        ∃ t, exec (.writeValue (b :: byteOf value.length :: value)) s = .next t ∧
          t = answered { s with pubs := t.pubs, access := { s.access with booking := t.access.booking } } ⟨.ok, []⟩ ∧
          SettledBooking s t ∧
          (∀ j : PubIndex, j ≠ i → t.pubs.table[j] = s.pubs.table[j]) ∧
          ((s.pubs.table[i]).inFlight = false →
            t.pubs.table[i] = { s.pubs.table[i] with
              payload := value, hasValue := true, dirty := true, item := (t.pubs.table[i]).item } ∧
            ((s.pubs.table[i]).item ≠ none → (t.pubs.table[i]).item = some .newValue ∧ t.pubs.items = s.pubs.items) ∧
            ((s.pubs.table[i]).item = none → (s.pubs.table[i]).mode ≠ .periodic →
              s.session.state = .member ∨ s.session.state = .leaving →
              (t.pubs.table[i]).item = some .newValue ∧
              t.pubs.items =
                insertItem { kind := .update i, cls := (s.pubs.table[i]).cls, attempts := 0, placed := s.pubs.placements }
                  s.pubs.items) ∧
            ((s.pubs.table[i]).item = none →
              (s.pubs.table[i]).mode = .periodic ∨ (s.session.state ≠ .member ∧ s.session.state ≠ .leaving) →
              (t.pubs.table[i]).item = none ∧ t.pubs.items = s.pubs.items)) ∧
          ((s.pubs.table[i]).inFlight = true →
            t.pubs.items = s.pubs.items ∧
            t.pubs.table[i] = { s.pubs.table[i] with
              payload := value, hasValue := true, dirty := true, writtenSinceLatch := true,
              item := (s.pubs.table[i]).item.map fun _ => .newValue, rePend := (t.pubs.table[i]).rePend } ∧
            ((s.pubs.table[i]).mode ≠ .periodic → s.session.state = .member ∨ s.session.state = .leaving →
              (t.pubs.table[i]).rePend = true) ∧
            ((s.pubs.table[i]).mode = .periodic ∨ (s.session.state ≠ .member ∧ s.session.state ≠ .leaving) →
              (t.pubs.table[i]).rePend = (s.pubs.table[i]).rePend)))) ∧
  ∀ (s : State) (b : Byte), Executes s 0x52 [b] →
    (31 < b.toNat → exec (.withdraw [b]) s = .next (answered s ⟨.badArgument, []⟩)) ∧
    ∀ i : PubIndex, b.toNat = i.val →
      ((s.pubs.table[i]).state = .free → exec (.withdraw [b]) s = .next (answered s ⟨.notFound, []⟩)) ∧
      ((s.pubs.table[i]).state = .withdrawing → exec (.withdraw [b]) s = .next (answered s ⟨.ok, []⟩)) ∧
      ((s.pubs.table[i]).state = .active ∨ (s.pubs.table[i]).state = .yielded →
        ∃ t, exec (.withdraw [b]) s = .next t ∧
          t = answered { s with pubs := { s.pubs with table := t.pubs.table, items := t.pubs.items } } ⟨.ok, []⟩ ∧
          (∀ j : PubIndex, j ≠ i → t.pubs.table[j] = s.pubs.table[j]) ∧
          ((s.pubs.table[i]).state = .yielded → t.pubs.table[i] = PubEntry.initial ∧ t.pubs.items = s.pubs.items) ∧
          ((s.pubs.table[i]).state = .active → (s.pubs.table[i]).inFlight = false →
            t.pubs.table[i] = PubEntry.initial ∧
            t.pubs.items = s.pubs.items.filter fun it => it.kind != .update i) ∧
          ((s.pubs.table[i]).state = .active → (s.pubs.table[i]).inFlight = true →
            t.pubs.items = s.pubs.items ∧ t.pubs.table[i] = { s.pubs.table[i] with
              state := .withdrawing, periodicTimer := none, holdOff := none, writtenSinceLatch := false,
              rePend := false }))

/-- RECALL in MEMBER of a topic not published and not yet recalled makes an entry of origin HOST in the lowest FREE position
and places its item; one that is recalled already only becomes of origin HOST; an own topic is OWN_TOPIC, and a full list
LIST_FULL. EPOCH in MEMBER with no request makes the request PENDING and places its item. In any other station state both are
WRONG_STATE (R145, R146, R157). The booking follows (R25, R27). -/
def Obligations.RecallAndEpochPlaceTheirItems : Prop :=
  ∀ s : State,
    (∀ hi lo : Byte, Executes s 0x60 [hi, lo] →
      (s.session.state ≠ .member → exec (.recallCmd [hi, lo]) s = .next (answered s ⟨.wrongState, []⟩)) ∧
      (s.session.state = .member → publishes s (hi ++ lo) →
        exec (.recallCmd [hi, lo]) s = .next (answered s ⟨.ownTopic, []⟩)) ∧
      (s.session.state = .member → ¬publishes s (hi ++ lo) →
        (∀ p : RecallPos, s.cont.recallsFit → (s.cont.recalls[p]).state ≠ .free →
          (s.cont.recalls[p]).topic = hi ++ lo →
          ∃ t, exec (.recallCmd [hi, lo]) s = .next t ∧
            t = answered { s with cont := { s.cont with recalls := t.cont.recalls } } ⟨.ok, []⟩ ∧
            t.cont.recalls[p] = { s.cont.recalls[p] with origin := .host } ∧
            ∀ q : RecallPos, q ≠ p → t.cont.recalls[q] = s.cont.recalls[q]) ∧
        ((∀ q : RecallPos, (s.cont.recalls[q]).state ≠ .free ∧ (s.cont.recalls[q]).topic ≠ hi ++ lo) →
          exec (.recallCmd [hi, lo]) s = .next (answered s ⟨.listFull, []⟩)) ∧
        ∀ p : RecallPos, (∀ q : RecallPos, (s.cont.recalls[q]).state ≠ .free → (s.cont.recalls[q]).topic ≠ hi ++ lo) →
          (s.cont.recalls[p]).state = .free → (∀ q : RecallPos, q < p → (s.cont.recalls[q]).state ≠ .free) →
          ∃ t, exec (.recallCmd [hi, lo]) s = .next t ∧
            t = answered { s with
                access := { s.access with booking := t.access.booking },
                cont := { s.cont with recalls := t.cont.recalls },
                pubs := { s.pubs with
                  items := insertItem
                    { kind := .recallItem (hi ++ lo), cls := 1, attempts := 0, placed := s.pubs.placements } s.pubs.items,
                  placements := s.pubs.placements + 1 } } ⟨.ok, []⟩ ∧
            SettledBooking s t ∧
            t.cont.recalls[p] = { state := .waiting, topic := hi ++ lo, origin := .host, expiries := 0, deadline := none } ∧
            ∀ q : RecallPos, q ≠ p → t.cont.recalls[q] = s.cont.recalls[q])) ∧
    (Executes s 0x70 [] →
      (s.session.state ≠ .member → exec (.epoch []) s = .next (answered s ⟨.wrongState, []⟩)) ∧
      (s.session.state = .member → s.epoch.request = .none →
        ∃ t, exec (.epoch []) s = .next t ∧
          t = answered { s with
              access := { s.access with booking := t.access.booking },
              epoch := { s.epoch with request := .waiting },
              pubs := { s.pubs with
                items := insertItem { kind := .epoch, cls := 0, attempts := 0, placed := s.pubs.placements } s.pubs.items,
                placements := s.pubs.placements + 1 } } ⟨.pending, []⟩ ∧
          SettledBooking s t) ∧
      (s.session.state = .member → s.epoch.request ≠ .none →
        exec (.epoch []) s = .next (answered s ⟨.pending, []⟩)))

/-- CONFIGURE in OFFLINE with a record in range installs it and empties every queue; out of range it changes nothing; in any
other state it is answered WRONG_STATE (R41, R42, R100). The fields stand at the offsets of 12.6, and the record is in range
exactly when each field is in the range of R41. -/
def Obligations.ConfigureInstallsTheRecord : Prop :=
  (∀ (n rate t3 t2 t1 t0 presence silence listen wait hold : Byte) (quotas marks : Vector Byte 8) (args : List Byte),
    args = n :: rate :: t3 :: t2 :: t1 :: t0 :: presence :: silence :: listen :: wait :: hold ::
      (quotas.toList ++ marks.toList) →
    args.length = 27 ∧
    ((recordOf args).isSome = true ↔
      n.toNat ≤ 31 ∧ rate.toNat ≤ 3 ∧ (t3 ++ t2 ++ t1 ++ t0).toNat ≠ 0 ∧ (t3 ++ t2 ++ t1 ++ t0).toNat ≠ 0xFFFFFFFF ∧
      1 ≤ presence.toNat ∧ 2 ≤ silence.toNat ∧ silence.toNat ≤ 15 ∧ 1 ≤ listen.toNat ∧ listen.toNat ≤ 15 ∧
      1 ≤ wait.toNat ∧ 1 ≤ hold.toNat ∧
      ∀ q : QueueNo, (quotas[q]).toNat ≤ 128 ∧
        ((quotas[q]).toNat = 0 ∨ (1 ≤ (marks[q]).toNat ∧ (marks[q]).toNat ≤ (quotas[q]).toNat))) ∧
    ∀ r, recordOf args = some r →
      r.station.val = n.toNat ∧ rateOf rate = some r.rate ∧ r.unitTag = t3 ++ t2 ++ t1 ++ t0 ∧
      r.presenceInterval = presence.toNat ∧ r.silenceMultiple = silence.toNat ∧ r.listenMultiple = listen.toNat ∧
      r.recallWait = wait.toNat ∧ r.recallHoldOff = hold.toNat ∧
      ∀ q : QueueNo, r.quotas[q] = (quotas[q]).toNat ∧ r.watermarks[q] = (marks[q]).toNat) ∧
  (rateOf 0 = some .kbit250 ∧ rateOf 1 = some .kbit500 ∧ rateOf 2 = some .mbit1 ∧ rateOf 3 = some .mbit2) ∧
  ∀ (s : State) (args : List Byte), args.length = 27 → Executes s 0x01 args →
    (∀ r, s.session.state = .offline → recordOf args = some r →
      exec (.configure args) s = .next (answered { s with
          session := { s.session with record := some r },
          store := { s.store with free := 128, queues := Vector.replicate 8 ReceiveQueue.initial } }
        ⟨.ok, []⟩)) ∧
    (s.session.state = .offline → recordOf args = none →
      exec (.configure args) s = .next (answered s ⟨.badArgument, []⟩)) ∧
    (s.session.state ≠ .offline → exec (.configure args) s = .next (answered s ⟨.wrongState, []⟩))

/-- JOIN in OFFLINE with a record: frozen, LISTENING, the listen window of listen multiple × presence interval × 10 ms, the
Line Interface SEEKING at the record's rate, bases 31, score 0, NORMAL, and the own roster entry SELF (R18, R39, R43,
R56). -/
def Obligations.JoinStartsListening : Prop :=
  ∀ (s : State), Executes s 0x02 [] →
    (∀ r, s.session.state = .offline → s.session.record = some r →
      ∃ t, exec (.join []) s = .next t ∧
        t = answered { s with session := t.session, line := t.line, access := t.access, roster := t.roster }
          ⟨.pending, []⟩ ∧
        t.session = { s.session with
          frozen := true, state := .listening,
          listenWindow := some (r.listenMultiple * r.presenceInterval * 10 * 1000) } ∧
        t.line.rate = some r.rate ∧ t.line.receive = .seeking ∧ t.line.send = .off ∧ t.line.blocked = none ∧
        t.line.clock = s.line.clock ∧
        (∀ c : FrameClass, t.access.bases[c] = 31) ∧ t.access.score = 0 ∧ t.access.standing = .normal ∧
        t.access.booking = none ∧ t.access.slotTime = none ∧
        t.roster[r.station] = { RosterEntry.absentEntry with state := .selfEntry, tag := some r.unitTag } ∧
        ∀ n : Station, n ≠ r.station → t.roster[n] = s.roster[n]) ∧
    (s.session.state = .offline → s.session.record = none →
      exec (.join []) s = .next (answered s ⟨.notConfigured, []⟩)) ∧
    (s.session.state ≠ .offline → exec (.join []) s = .next (answered s ⟨.wrongState, []⟩))

/-- LEAVE: with no own frame in flight the leave completes at once, every owner clearing its session state and the notices
ending with LEFT; with one in flight the station is LEAVING; in OFFLINE it is WRONG_STATE (R53, R55, R83, R114, R138). In
LEAVING the leave completes when the attempt has ended: at the FRAME_END of its clean echo, or at JAM_END (R54); that LEFT
then stands behind the notices of that end is the model's reading (log 15). The cells are counted in states that keep the
invariant planFits. -/
def Obligations.LeaveReturnsToOffline : Prop :=
  (∀ s : State, Executes s 0x03 [] →
    (s.session.state = .listening ∨ s.session.state = .claiming ∨ s.session.state = .member ∨ s.session.state = .refused →
      s.access.inFlight = none →
      ∃ t, exec (.leave []) s = .next t ∧ t.port.state = .responseWaiting ⟨.ok, []⟩ ∧ LeftTheLine s t ∧
        (planFits s → t.store.free = s.store.free + s.store.reservedCells) ∧
        t.line.blocked = none ∧ t.line.gap = none ∧
        (∀ i : SubIndex, (t.accept.table[i]).engaged = false ∧ (t.accept.table[i]).state ≠ .withdrawing) ∧
        (∀ i : PubIndex, t.pubs.table[i] = { s.pubs.table[i] with
          item := none, inFlight := false, writtenSinceLatch := false, rePend := false, periodicTimer := none,
          holdOff := none }) ∧
        (∀ q : QueueNo, (t.store.queues[q]).overflow = (s.store.queues[q]).overflow ∧
          (t.store.queues[q]).dropped = (s.store.queues[q]).dropped ∧
          (t.store.queues[q]).lastReason = (s.store.queues[q]).lastReason) ∧
        (s.access.standing ≠ .normal → notified s t (.standingChanged .normal)) ∧
        (∀ p : RecallPos, (s.cont.recalls[p]).state ≠ .free → (s.cont.recalls[p]).origin = .host →
          notified s t (.recallDone (s.cont.recalls[p]).topic .cancelled)) ∧
        (s.epoch.request ≠ .none → notified s t (.epochDone .cancelled)) ∧
        t.session = { s.session with frozen := false, state := .offline, listenWindow := none, presenceTimer := none } ∧
        t.line.receive = .inactive ∧ t.line.send = .off ∧ t.line.rate = none ∧ t.line.clock = s.line.clock ∧
        t.access = AccessController.initial ∧ (∀ n : Station, t.roster[n] = RosterEntry.absentEntry) ∧
        t.cont.tracker = [] ∧ (∀ p : RecallPos, t.cont.recalls[p] = RecallEntry.initial) ∧
        t.epoch.request = .none ∧ t.epoch.lastSeen = none ∧ t.epoch.banks = s.epoch.banks ∧ t.epoch.latest = s.epoch.latest ∧
        t.pubs.items = [] ∧ t.accept.plan = Plan.empty ∧
        (∀ i : PubIndex, (t.pubs.table[i]).state = (s.pubs.table[i]).state ∧ (t.pubs.table[i]).item = none ∧
          (t.pubs.table[i]).payload = (s.pubs.table[i]).payload ∧ (t.pubs.table[i]).periodicTimer = none) ∧
        (∀ q : QueueNo, (t.store.queues[q]).records = (s.store.queues[q]).records) ∧
        (∀ k : SlotNo, (s.store.slots[k]).state = .fresh →
          (t.store.slots[k]).state = .stale ∧ (t.store.slots[k]).reason = some .left ∧
          (t.store.slots[k]).contents = (s.store.slots[k]).contents) ∧
        (∀ k : SlotNo, (s.store.slots[k]).state ≠ .fresh → t.store.slots[k] = s.store.slots[k]) ∧
        (s.port.notices = [] → t.port.notices.getLast? = some { notice := .left, stamp := s.line.clock })) ∧
    (s.session.state = .claiming ∨ s.session.state = .member → s.access.inFlight.isSome = true →
      ∃ t, exec (.leave []) s = .next t ∧
        t = answered { s with
            session := { s.session with state := .leaving, listenWindow := none, presenceTimer := none },
            access := { s.access with booking := none } } ⟨.ok, []⟩) ∧
    (s.session.state = .leaving → exec (.leave []) s = .next (answered s ⟨.ok, []⟩)) ∧
    (s.session.state = .offline → exec (.leave []) s = .next (answered s ⟨.wrongState, []⟩))) ∧
  (∀ (s : State) (f : Flight) (fr : Frame), OwnEcho s f fr → s.session.state = .leaving →
    ∃ t, exec (.frameEnd (wholeFrame (withCheck f.covered))) s = .next t ∧ LeftTheLine s t ∧
      unnotified s t (fun n => n = .joined) ∧
      (∀ e, fr.body = .epoch e → notified s t (.epochDone (.sent e fr.source))) ∧
      (∀ i, f.kind = .update i →
        ((s.pubs.table[i]).state = .withdrawing → t.pubs.table[i] = PubEntry.initial) ∧
        ((s.pubs.table[i]).state = .active → f.latchedRepeat = false →
          (t.pubs.table[i]).nextSeq = (s.pubs.table[i]).nextSeq + 1 ∧ (t.pubs.table[i]).firstArmed = false))) ∧
  ∀ (s : State) (n : Nat) (f : Flight), s.held = false → s.line.send = .jamming n → s.access.inFlight = some f →
    s.session.state = .leaving →
    ∃ t, exec .jamEnd s = .next t ∧ LeftTheLine s t ∧
      (∀ i, f.kind = .update i → (s.pubs.table[i]).state = .withdrawing → t.pubs.table[i] = PubEntry.initial) ∧
      (16 ≤ attemptsOf s f.kind →
        (∀ topic, f.kind = .recallItem topic → notified s t (.transmitAbandoned .recallFrame topic.toNat)) ∧
        (f.kind = .claim → notified s t (.transmitAbandoned .claim (ownNumber s).val) ∧
          unnotified s t fun n => ∃ reason, n = .sessionRefused reason) ∧
        (f.kind = .epoch → notified s t (.epochDone .abandoned))) ∧
      (attemptsOf s f.kind < 16 → unnotified s t fun n => ∃ k m, n = .transmitAbandoned k m)

/-- SET ATTENTION MASK stores ten bits in every state of the station and refuses any other bit; ATTN follows the new mask. The
mask is 0 after power-on, the RESET pin and SOFT RESET, and no other command changes it (R183). READ NOTICE returns and removes
the oldest record, and clears the lost flag when the queue empties; a posting appends behind the records, or is lost where 32
are queued (R180, R181). The notice record has the layout of 12.8 for each kind, with the codes of 12.3. -/
def Obligations.AttentionMaskAndNotices : Prop :=
  (∀ s : State,
    (∀ hi lo : Byte, Executes s 0x06 [hi, lo] →
      ((hi ++ lo).toNat < 1024 →
        ∃ t, exec (.setAttentionMask [hi, lo]) s = .next t ∧
          t = answered { s with port := { s.port with mask := t.port.mask } } ⟨.ok, []⟩ ∧
          t.port.mask.toNat = (hi ++ lo).toNat ∧
          (attn t = true ↔ s.port.notices ≠ [] ∨
            ∃ n, n < 10 ∧ (rawConditions s).getLsbD n = true ∧ (hi ++ lo).getLsbD n = true)) ∧
      (1024 ≤ (hi ++ lo).toNat →
        exec (.setAttentionMask [hi, lo]) s = .next (answered s ⟨.badArgument, []⟩))) ∧
    (∃ t, exec .powerOn s = .next t ∧ t.port.mask = 0) ∧
    (∀ n rises, 16 ≤ n → ∃ t, exec (.resetPin n rises) s = .next t ∧ t.port.mask = 0) ∧
    (Executes s 0x05 [] → ∃ t, exec (.softReset []) s = .next t ∧ t.port.mask = 0) ∧
    (∀ (c : Instr) (t : State), (∀ args, c ≠ .setAttentionMask args) → (∀ args, c ≠ .softReset args) → c ≠ .powerOn →
      (∀ n rises, c ≠ .resetPin n rises) → c ≠ .resetEnd → exec c s = .next t → t.port.mask = s.port.mask) ∧
    (Executes s 0x07 [] →
      (s.port.notices = [] → exec (.readNotice []) s = .next (answered s ⟨.empty, []⟩)) ∧
      (∀ n rest, s.port.notices = n :: rest →
        ∃ t, exec (.readNotice []) s = .next t ∧
          t = answered { s with port := { s.port with
              notices := rest, lost := if rest = [] then false else s.port.lost } }
            ⟨.ok, n.bytes ++ [byteOf rest.length]⟩ ∧
          (attn t = true ↔ rest ≠ [] ∨
            ∃ n, n < 10 ∧ (rawConditions s).getLsbD n = true ∧ s.port.mask.getLsbD n = true))) ∧
    (∀ n : Notice,
      (s.port.notices.length < 32 → post s n = { s with port := { s.port with
        notices := s.port.notices ++ [{ notice := n, stamp := s.line.clock }] } }) ∧
      (32 ≤ s.port.notices.length → post s n = { s with port := { s.port with lost := true } }) ∧
      postAll s [] = s ∧ ∀ ns, postAll s (n :: ns) = postAll (post s n) ns)) ∧
  ∀ w : Stamp,
    NoticeRecord.bytes ⟨.joined, w⟩ = noticeRecord 0x01 0 0 0 w ∧
    (∀ reason, NoticeRecord.bytes ⟨.sessionRefused reason, w⟩ = noticeRecord 0x02
      (match reason with | .stationTaken => 1 | .claimFailed => 2 | .duplicateLost => 3) 0 0 w) ∧
    NoticeRecord.bytes ⟨.left, w⟩ = noticeRecord 0x03 0 0 0 w ∧
    (∀ k, NoticeRecord.bytes ⟨.duplicateSuspected k, w⟩ = noticeRecord 0x04
      (match k with | .update => 1 | .recallFrame => 2 | .epoch => 3 | .presence => 4 | .claim => 5) 0 0 w) ∧
    (∀ st, NoticeRecord.bytes ⟨.standingChanged st, w⟩ = noticeRecord 0x10
      (match st with | .normal => 0 | .caution => 1 | .quiet => 2) 0 0 w) ∧
    NoticeRecord.bytes ⟨.lineBlocked, w⟩ = noticeRecord 0x11 0 0 0 w ∧
    (∀ k n, NoticeRecord.bytes ⟨.transmitAbandoned k n, w⟩ = noticeRecord 0x12
      (match k with | .update => 1 | .recallFrame => 2 | .epoch => 3 | .presence => 4 | .claim => 5) n 0 w) ∧
    (∀ x : Station,
      NoticeRecord.bytes ⟨.peerJoined x, w⟩ = noticeRecord 0x20 x.val 0 0 w ∧
      NoticeRecord.bytes ⟨.peerReturned x, w⟩ = noticeRecord 0x21 x.val 0 0 w ∧
      NoticeRecord.bytes ⟨.peerSilent x, w⟩ = noticeRecord 0x22 x.val 0 0 w ∧
      NoticeRecord.bytes ⟨.peerReplaced x, w⟩ = noticeRecord 0x23 x.val 0 0 w) ∧
    (∀ (q : QueueNo) reason, NoticeRecord.bytes ⟨.queueOverflow q reason, w⟩ = noticeRecord 0x30 q.val
      (match reason with | .quota => 1 | .pool => 2) 0 w) ∧
    (∀ (k : SlotNo) reason, NoticeRecord.bytes ⟨.slotStale k reason, w⟩ = noticeRecord 0x31 k.val
      (match reason with | .freshness => 1 | .peerSilent => 2 | .left => 3) 0 w) ∧
    (∀ (topic : Topic) o, NoticeRecord.bytes ⟨.recallDone topic o, w⟩ = noticeRecord 0x40 topic.toNat
      (match o with | .answered => 1 | .unanswered => 2 | .abandoned => 3 | .cancelled => 4) 0 w) ∧
    (∀ (i : PubIndex) (x : Station),
      NoticeRecord.bytes ⟨.publicationYielded i x, w⟩ = noticeRecord 0x50 i.val x.val 0 w ∧
      NoticeRecord.bytes ⟨.conflictObserved i x, w⟩ = noticeRecord 0x51 i.val x.val 0 w) ∧
    (∀ (e e' : SeqNo) (x : Station),
      NoticeRecord.bytes ⟨.epochDone (.sent e x), w⟩ = noticeRecord 0x60 1 e.toNat x.val w ∧
      NoticeRecord.bytes ⟨.epochDone (.merged e x), w⟩ = noticeRecord 0x60 2 e.toNat x.val w ∧
      NoticeRecord.bytes ⟨.epochGap e e', w⟩ = noticeRecord 0x61 e.toNat e'.toNat 0 w ∧
      NoticeRecord.bytes ⟨.snapshotOverrun e, w⟩ = noticeRecord 0x62 e.toNat 0 0 w) ∧
    NoticeRecord.bytes ⟨.epochDone .abandoned, w⟩ = noticeRecord 0x60 3 0 0 w ∧
    NoticeRecord.bytes ⟨.epochDone .cancelled, w⟩ = noticeRecord 0x60 4 0 0 w

/-- UNKNOWN_COMMAND: a taken code that 12.5 does not name is answered UNKNOWN_COMMAND, whatever its arguments, and nothing
else changes (R174, R191). -/
def Obligations.UnknownCommandIsAnsweredAsUnknown : Prop :=
  ∀ (s : State) (code : Byte) (args : List Byte), code ≠ 0 →
    (∀ a : List Byte, commandOf code a = .unknownCommand code a) → Executes s code args →
    exec (.unknownCommand code args) s = .next (answered s ⟨.unknownCommand, []⟩)

/-! ## What every step keeps -/

/-- R34, R36: score and standing fit after every step. -/
def Obligations.ScoreAndStandingStayFit : Prop :=
  ∀ s t : State, s.access.scoreFits → step s = .next t → t.access.scoreFits

/-- R179, R180: the notice queue never holds more than 32 records, and the lost flag is set only while one is queued. -/
def Obligations.NoticeQueueStaysBounded : Prop :=
  ∀ s t : State, s.port.noticesFit → step s = .next t → t.port.noticesFit

/-- R140, R145: at most 48 tracker entries, and never two with the same source and topic; and no two recall list entries
that are not FREE have the same topic, and a FREE one has its initial values. -/
def Obligations.TrackerStaysBoundedAndDistinct : Prop :=
  (∀ s t : State, s.cont.trackerFits → step s = .next t → t.cont.trackerFits) ∧
  ∀ s t : State, s.cont.recallsFit → step s = .next t → t.cont.recallsFit

/-- R155, R156: at most one bank is HELD, EMPTY banks hold their initial values, and the latest-capture mark names a bank
that is not EMPTY. -/
def Obligations.SnapshotBanksStayFit : Prop :=
  ∀ s t : State, s.epoch.banksFit → step s = .next t → t.epoch.banksFit

/-- R103, R104: contents, stale reason and deadline of every slot fit its state. -/
def Obligations.SlotsStayFit : Prop :=
  ∀ s t : State, s.store.slotsFit → step s = .next t → t.store.slotsFit

/-- R118: no two non-FREE publication entries have the same topic. -/
def Obligations.PublicationTopicsStayDistinct : Prop :=
  ∀ s t : State, s.pubs.topicsDiffer → step s = .next t → t.pubs.topicsDiffer

/-- R133: the items stand in ascending class, and in one class in the order of their placement. R134: at most one item a
publication and a kind, a RECALL for each topic, and a listed publication is ACTIVE or WITHDRAWING in its flight. -/
def Obligations.TransmitListStaysOrdered : Prop :=
  (∀ s t : State, s.pubs.ordered → step s = .next t → t.pubs.ordered) ∧
  ∀ s t : State, s.cont.recallsFit → itemsFit s → step s = .next t → itemsFit t

/-- R42, R43, R49, R56, R18: record, timers, roster and line fit the station state: in OFFLINE every roster entry is ABSENT
and the line is inactive with no item in flight, in every other state exactly the own entry is SELF. -/
def Obligations.SessionAndRosterStayFit : Prop :=
  ∀ s t : State, s.session.fits → rosterFits s → quietOffline s → step s = .next t →
    t.session.fits ∧ rosterFits t ∧ quietOffline t

/-- R86, R87: free cells, reservations and records always number 128, and no queue uses more than its quota. -/
def Obligations.PoolCellsStayAccountedFor : Prop :=
  ∀ s t : State, quietOffline s → planFits s → poolFits s → step s = .next t → planFits t ∧ poolFits t

/-- The invariants hold at the machine's reset state. -/
def Obligations.InvariantsHoldAtReset : Prop :=
  State.reset.access.scoreFits ∧ State.reset.port.noticesFit ∧ State.reset.cont.trackerFits ∧
  State.reset.epoch.banksFit ∧ State.reset.store.slotsFit ∧ State.reset.pubs.topicsDiffer ∧ State.reset.pubs.ordered ∧
  State.reset.session.fits ∧ rosterFits State.reset ∧ quietOffline State.reset ∧ planFits State.reset ∧
  poolFits State.reset ∧ State.reset.cont.recallsFit ∧ itemsFit State.reset
end

