-- ==== Sys2Proof/Laws/State.lean ====
section
/-! SUPPORT. One lemma per field per update of State: what each update leaves and what it sets. -/

namespace Sys2Proof.Machine

variable (s : State)

/-! ### `State.setLine` -/

@[simp] theorem setLine_pending (x : LineInterface) : (s.setLine x).pending = s.pending := rfl
@[simp] theorem setLine_free (x : LineInterface) : (s.setLine x).free = s.free := rfl
@[simp] theorem setLine_held (x : LineInterface) : (s.setLine x).held = s.held := rfl
@[simp] theorem setLine_hold (x : LineInterface) : (s.setLine x).hold = s.hold := rfl
@[simp] theorem setLine_line (x : LineInterface) : (s.setLine x).line = x := rfl
@[simp] theorem setLine_access (x : LineInterface) : (s.setLine x).access = s.access := rfl
@[simp] theorem setLine_session (x : LineInterface) : (s.setLine x).session = s.session := rfl
@[simp] theorem setLine_roster (x : LineInterface) : (s.setLine x).roster = s.roster := rfl
@[simp] theorem setLine_accept (x : LineInterface) : (s.setLine x).accept = s.accept := rfl
@[simp] theorem setLine_store (x : LineInterface) : (s.setLine x).store = s.store := rfl
@[simp] theorem setLine_pubs (x : LineInterface) : (s.setLine x).pubs = s.pubs := rfl
@[simp] theorem setLine_cont (x : LineInterface) : (s.setLine x).cont = s.cont := rfl
@[simp] theorem setLine_epoch (x : LineInterface) : (s.setLine x).epoch = s.epoch := rfl
@[simp] theorem setLine_port (x : LineInterface) : (s.setLine x).port = s.port := rfl

/-! ### `State.setAccess` -/

@[simp] theorem setAccess_pending (x : AccessController) : (s.setAccess x).pending = s.pending := rfl
@[simp] theorem setAccess_free (x : AccessController) : (s.setAccess x).free = s.free := rfl
@[simp] theorem setAccess_held (x : AccessController) : (s.setAccess x).held = s.held := rfl
@[simp] theorem setAccess_hold (x : AccessController) : (s.setAccess x).hold = s.hold := rfl
@[simp] theorem setAccess_line (x : AccessController) : (s.setAccess x).line = s.line := rfl
@[simp] theorem setAccess_access (x : AccessController) : (s.setAccess x).access = x := rfl
@[simp] theorem setAccess_session (x : AccessController) : (s.setAccess x).session = s.session := rfl
@[simp] theorem setAccess_roster (x : AccessController) : (s.setAccess x).roster = s.roster := rfl
@[simp] theorem setAccess_accept (x : AccessController) : (s.setAccess x).accept = s.accept := rfl
@[simp] theorem setAccess_store (x : AccessController) : (s.setAccess x).store = s.store := rfl
@[simp] theorem setAccess_pubs (x : AccessController) : (s.setAccess x).pubs = s.pubs := rfl
@[simp] theorem setAccess_cont (x : AccessController) : (s.setAccess x).cont = s.cont := rfl
@[simp] theorem setAccess_epoch (x : AccessController) : (s.setAccess x).epoch = s.epoch := rfl
@[simp] theorem setAccess_port (x : AccessController) : (s.setAccess x).port = s.port := rfl

/-! ### `State.setSession` -/

@[simp] theorem setSession_pending (x : SessionController) : (s.setSession x).pending = s.pending := rfl
@[simp] theorem setSession_free (x : SessionController) : (s.setSession x).free = s.free := rfl
@[simp] theorem setSession_held (x : SessionController) : (s.setSession x).held = s.held := rfl
@[simp] theorem setSession_hold (x : SessionController) : (s.setSession x).hold = s.hold := rfl
@[simp] theorem setSession_line (x : SessionController) : (s.setSession x).line = s.line := rfl
@[simp] theorem setSession_access (x : SessionController) : (s.setSession x).access = s.access := rfl
@[simp] theorem setSession_session (x : SessionController) : (s.setSession x).session = x := rfl
@[simp] theorem setSession_roster (x : SessionController) : (s.setSession x).roster = s.roster := rfl
@[simp] theorem setSession_accept (x : SessionController) : (s.setSession x).accept = s.accept := rfl
@[simp] theorem setSession_store (x : SessionController) : (s.setSession x).store = s.store := rfl
@[simp] theorem setSession_pubs (x : SessionController) : (s.setSession x).pubs = s.pubs := rfl
@[simp] theorem setSession_cont (x : SessionController) : (s.setSession x).cont = s.cont := rfl
@[simp] theorem setSession_epoch (x : SessionController) : (s.setSession x).epoch = s.epoch := rfl
@[simp] theorem setSession_port (x : SessionController) : (s.setSession x).port = s.port := rfl

/-! ### `State.setRoster` -/

@[simp] theorem setRoster_pending (x : Vector RosterEntry 32) : (s.setRoster x).pending = s.pending := rfl
@[simp] theorem setRoster_free (x : Vector RosterEntry 32) : (s.setRoster x).free = s.free := rfl
@[simp] theorem setRoster_held (x : Vector RosterEntry 32) : (s.setRoster x).held = s.held := rfl
@[simp] theorem setRoster_hold (x : Vector RosterEntry 32) : (s.setRoster x).hold = s.hold := rfl
@[simp] theorem setRoster_line (x : Vector RosterEntry 32) : (s.setRoster x).line = s.line := rfl
@[simp] theorem setRoster_access (x : Vector RosterEntry 32) : (s.setRoster x).access = s.access := rfl
@[simp] theorem setRoster_session (x : Vector RosterEntry 32) : (s.setRoster x).session = s.session := rfl
@[simp] theorem setRoster_roster (x : Vector RosterEntry 32) : (s.setRoster x).roster = x := rfl
@[simp] theorem setRoster_accept (x : Vector RosterEntry 32) : (s.setRoster x).accept = s.accept := rfl
@[simp] theorem setRoster_store (x : Vector RosterEntry 32) : (s.setRoster x).store = s.store := rfl
@[simp] theorem setRoster_pubs (x : Vector RosterEntry 32) : (s.setRoster x).pubs = s.pubs := rfl
@[simp] theorem setRoster_cont (x : Vector RosterEntry 32) : (s.setRoster x).cont = s.cont := rfl
@[simp] theorem setRoster_epoch (x : Vector RosterEntry 32) : (s.setRoster x).epoch = s.epoch := rfl
@[simp] theorem setRoster_port (x : Vector RosterEntry 32) : (s.setRoster x).port = s.port := rfl

/-! ### `State.setAccept` -/

@[simp] theorem setAccept_pending (x : AcceptanceUnit) : (s.setAccept x).pending = s.pending := rfl
@[simp] theorem setAccept_free (x : AcceptanceUnit) : (s.setAccept x).free = s.free := rfl
@[simp] theorem setAccept_held (x : AcceptanceUnit) : (s.setAccept x).held = s.held := rfl
@[simp] theorem setAccept_hold (x : AcceptanceUnit) : (s.setAccept x).hold = s.hold := rfl
@[simp] theorem setAccept_line (x : AcceptanceUnit) : (s.setAccept x).line = s.line := rfl
@[simp] theorem setAccept_access (x : AcceptanceUnit) : (s.setAccept x).access = s.access := rfl
@[simp] theorem setAccept_session (x : AcceptanceUnit) : (s.setAccept x).session = s.session := rfl
@[simp] theorem setAccept_roster (x : AcceptanceUnit) : (s.setAccept x).roster = s.roster := rfl
@[simp] theorem setAccept_accept (x : AcceptanceUnit) : (s.setAccept x).accept = x := rfl
@[simp] theorem setAccept_store (x : AcceptanceUnit) : (s.setAccept x).store = s.store := rfl
@[simp] theorem setAccept_pubs (x : AcceptanceUnit) : (s.setAccept x).pubs = s.pubs := rfl
@[simp] theorem setAccept_cont (x : AcceptanceUnit) : (s.setAccept x).cont = s.cont := rfl
@[simp] theorem setAccept_epoch (x : AcceptanceUnit) : (s.setAccept x).epoch = s.epoch := rfl
@[simp] theorem setAccept_port (x : AcceptanceUnit) : (s.setAccept x).port = s.port := rfl

/-! ### `State.setStore` -/

@[simp] theorem setStore_pending (x : MessageStore) : (s.setStore x).pending = s.pending := rfl
@[simp] theorem setStore_free (x : MessageStore) : (s.setStore x).free = s.free := rfl
@[simp] theorem setStore_held (x : MessageStore) : (s.setStore x).held = s.held := rfl
@[simp] theorem setStore_hold (x : MessageStore) : (s.setStore x).hold = s.hold := rfl
@[simp] theorem setStore_line (x : MessageStore) : (s.setStore x).line = s.line := rfl
@[simp] theorem setStore_access (x : MessageStore) : (s.setStore x).access = s.access := rfl
@[simp] theorem setStore_session (x : MessageStore) : (s.setStore x).session = s.session := rfl
@[simp] theorem setStore_roster (x : MessageStore) : (s.setStore x).roster = s.roster := rfl
@[simp] theorem setStore_accept (x : MessageStore) : (s.setStore x).accept = s.accept := rfl
@[simp] theorem setStore_store (x : MessageStore) : (s.setStore x).store = x := rfl
@[simp] theorem setStore_pubs (x : MessageStore) : (s.setStore x).pubs = s.pubs := rfl
@[simp] theorem setStore_cont (x : MessageStore) : (s.setStore x).cont = s.cont := rfl
@[simp] theorem setStore_epoch (x : MessageStore) : (s.setStore x).epoch = s.epoch := rfl
@[simp] theorem setStore_port (x : MessageStore) : (s.setStore x).port = s.port := rfl

/-! ### `State.setPubs` -/

@[simp] theorem setPubs_pending (x : PublicationUnit) : (s.setPubs x).pending = s.pending := rfl
@[simp] theorem setPubs_free (x : PublicationUnit) : (s.setPubs x).free = s.free := rfl
@[simp] theorem setPubs_held (x : PublicationUnit) : (s.setPubs x).held = s.held := rfl
@[simp] theorem setPubs_hold (x : PublicationUnit) : (s.setPubs x).hold = s.hold := rfl
@[simp] theorem setPubs_line (x : PublicationUnit) : (s.setPubs x).line = s.line := rfl
@[simp] theorem setPubs_access (x : PublicationUnit) : (s.setPubs x).access = s.access := rfl
@[simp] theorem setPubs_session (x : PublicationUnit) : (s.setPubs x).session = s.session := rfl
@[simp] theorem setPubs_roster (x : PublicationUnit) : (s.setPubs x).roster = s.roster := rfl
@[simp] theorem setPubs_accept (x : PublicationUnit) : (s.setPubs x).accept = s.accept := rfl
@[simp] theorem setPubs_store (x : PublicationUnit) : (s.setPubs x).store = s.store := rfl
@[simp] theorem setPubs_pubs (x : PublicationUnit) : (s.setPubs x).pubs = x := rfl
@[simp] theorem setPubs_cont (x : PublicationUnit) : (s.setPubs x).cont = s.cont := rfl
@[simp] theorem setPubs_epoch (x : PublicationUnit) : (s.setPubs x).epoch = s.epoch := rfl
@[simp] theorem setPubs_port (x : PublicationUnit) : (s.setPubs x).port = s.port := rfl

/-! ### `State.setCont` -/

@[simp] theorem setCont_pending (x : ContinuityUnit) : (s.setCont x).pending = s.pending := rfl
@[simp] theorem setCont_free (x : ContinuityUnit) : (s.setCont x).free = s.free := rfl
@[simp] theorem setCont_held (x : ContinuityUnit) : (s.setCont x).held = s.held := rfl
@[simp] theorem setCont_hold (x : ContinuityUnit) : (s.setCont x).hold = s.hold := rfl
@[simp] theorem setCont_line (x : ContinuityUnit) : (s.setCont x).line = s.line := rfl
@[simp] theorem setCont_access (x : ContinuityUnit) : (s.setCont x).access = s.access := rfl
@[simp] theorem setCont_session (x : ContinuityUnit) : (s.setCont x).session = s.session := rfl
@[simp] theorem setCont_roster (x : ContinuityUnit) : (s.setCont x).roster = s.roster := rfl
@[simp] theorem setCont_accept (x : ContinuityUnit) : (s.setCont x).accept = s.accept := rfl
@[simp] theorem setCont_store (x : ContinuityUnit) : (s.setCont x).store = s.store := rfl
@[simp] theorem setCont_pubs (x : ContinuityUnit) : (s.setCont x).pubs = s.pubs := rfl
@[simp] theorem setCont_cont (x : ContinuityUnit) : (s.setCont x).cont = x := rfl
@[simp] theorem setCont_epoch (x : ContinuityUnit) : (s.setCont x).epoch = s.epoch := rfl
@[simp] theorem setCont_port (x : ContinuityUnit) : (s.setCont x).port = s.port := rfl

/-! ### `State.setEpoch` -/

@[simp] theorem setEpoch_pending (x : EpochUnit) : (s.setEpoch x).pending = s.pending := rfl
@[simp] theorem setEpoch_free (x : EpochUnit) : (s.setEpoch x).free = s.free := rfl
@[simp] theorem setEpoch_held (x : EpochUnit) : (s.setEpoch x).held = s.held := rfl
@[simp] theorem setEpoch_hold (x : EpochUnit) : (s.setEpoch x).hold = s.hold := rfl
@[simp] theorem setEpoch_line (x : EpochUnit) : (s.setEpoch x).line = s.line := rfl
@[simp] theorem setEpoch_access (x : EpochUnit) : (s.setEpoch x).access = s.access := rfl
@[simp] theorem setEpoch_session (x : EpochUnit) : (s.setEpoch x).session = s.session := rfl
@[simp] theorem setEpoch_roster (x : EpochUnit) : (s.setEpoch x).roster = s.roster := rfl
@[simp] theorem setEpoch_accept (x : EpochUnit) : (s.setEpoch x).accept = s.accept := rfl
@[simp] theorem setEpoch_store (x : EpochUnit) : (s.setEpoch x).store = s.store := rfl
@[simp] theorem setEpoch_pubs (x : EpochUnit) : (s.setEpoch x).pubs = s.pubs := rfl
@[simp] theorem setEpoch_cont (x : EpochUnit) : (s.setEpoch x).cont = s.cont := rfl
@[simp] theorem setEpoch_epoch (x : EpochUnit) : (s.setEpoch x).epoch = x := rfl
@[simp] theorem setEpoch_port (x : EpochUnit) : (s.setEpoch x).port = s.port := rfl

/-! ### `State.setPort` -/

@[simp] theorem setPort_pending (x : HostPort) : (s.setPort x).pending = s.pending := rfl
@[simp] theorem setPort_free (x : HostPort) : (s.setPort x).free = s.free := rfl
@[simp] theorem setPort_held (x : HostPort) : (s.setPort x).held = s.held := rfl
@[simp] theorem setPort_hold (x : HostPort) : (s.setPort x).hold = s.hold := rfl
@[simp] theorem setPort_line (x : HostPort) : (s.setPort x).line = s.line := rfl
@[simp] theorem setPort_access (x : HostPort) : (s.setPort x).access = s.access := rfl
@[simp] theorem setPort_session (x : HostPort) : (s.setPort x).session = s.session := rfl
@[simp] theorem setPort_roster (x : HostPort) : (s.setPort x).roster = s.roster := rfl
@[simp] theorem setPort_accept (x : HostPort) : (s.setPort x).accept = s.accept := rfl
@[simp] theorem setPort_store (x : HostPort) : (s.setPort x).store = s.store := rfl
@[simp] theorem setPort_pubs (x : HostPort) : (s.setPort x).pubs = s.pubs := rfl
@[simp] theorem setPort_cont (x : HostPort) : (s.setPort x).cont = s.cont := rfl
@[simp] theorem setPort_epoch (x : HostPort) : (s.setPort x).epoch = s.epoch := rfl
@[simp] theorem setPort_port (x : HostPort) : (s.setPort x).port = x := rfl

/-! ### `State.setPending` -/

@[simp] theorem setPending_pending (x : List Instr) : (s.setPending x).pending = x := rfl
@[simp] theorem setPending_free (x : List Instr) : (s.setPending x).free = s.free := rfl
@[simp] theorem setPending_held (x : List Instr) : (s.setPending x).held = s.held := rfl
@[simp] theorem setPending_hold (x : List Instr) : (s.setPending x).hold = s.hold := rfl
@[simp] theorem setPending_line (x : List Instr) : (s.setPending x).line = s.line := rfl
@[simp] theorem setPending_access (x : List Instr) : (s.setPending x).access = s.access := rfl
@[simp] theorem setPending_session (x : List Instr) : (s.setPending x).session = s.session := rfl
@[simp] theorem setPending_roster (x : List Instr) : (s.setPending x).roster = s.roster := rfl
@[simp] theorem setPending_accept (x : List Instr) : (s.setPending x).accept = s.accept := rfl
@[simp] theorem setPending_store (x : List Instr) : (s.setPending x).store = s.store := rfl
@[simp] theorem setPending_pubs (x : List Instr) : (s.setPending x).pubs = s.pubs := rfl
@[simp] theorem setPending_cont (x : List Instr) : (s.setPending x).cont = s.cont := rfl
@[simp] theorem setPending_epoch (x : List Instr) : (s.setPending x).epoch = s.epoch := rfl
@[simp] theorem setPending_port (x : List Instr) : (s.setPending x).port = s.port := rfl

/-! ### `State.updPub` -/

@[simp] theorem updPub_pending (i : PubIndex) (f : PubEntry → PubEntry) : (s.updPub i f).pending = s.pending := rfl
@[simp] theorem updPub_free (i : PubIndex) (f : PubEntry → PubEntry) : (s.updPub i f).free = s.free := rfl
@[simp] theorem updPub_held (i : PubIndex) (f : PubEntry → PubEntry) : (s.updPub i f).held = s.held := rfl
@[simp] theorem updPub_hold (i : PubIndex) (f : PubEntry → PubEntry) : (s.updPub i f).hold = s.hold := rfl
@[simp] theorem updPub_line (i : PubIndex) (f : PubEntry → PubEntry) : (s.updPub i f).line = s.line := rfl
@[simp] theorem updPub_access (i : PubIndex) (f : PubEntry → PubEntry) : (s.updPub i f).access = s.access := rfl
@[simp] theorem updPub_session (i : PubIndex) (f : PubEntry → PubEntry) : (s.updPub i f).session = s.session := rfl
@[simp] theorem updPub_roster (i : PubIndex) (f : PubEntry → PubEntry) : (s.updPub i f).roster = s.roster := rfl
@[simp] theorem updPub_accept (i : PubIndex) (f : PubEntry → PubEntry) : (s.updPub i f).accept = s.accept := rfl
@[simp] theorem updPub_store (i : PubIndex) (f : PubEntry → PubEntry) : (s.updPub i f).store = s.store := rfl
@[simp] theorem updPub_pubs (i : PubIndex) (f : PubEntry → PubEntry) : (s.updPub i f).pubs = { s.pubs with table := upd s.pubs.table i f } := rfl
@[simp] theorem updPub_cont (i : PubIndex) (f : PubEntry → PubEntry) : (s.updPub i f).cont = s.cont := rfl
@[simp] theorem updPub_epoch (i : PubIndex) (f : PubEntry → PubEntry) : (s.updPub i f).epoch = s.epoch := rfl
@[simp] theorem updPub_port (i : PubIndex) (f : PubEntry → PubEntry) : (s.updPub i f).port = s.port := rfl

/-! ### `State.updSlot` -/

@[simp] theorem updSlot_pending (i : SlotNo) (f : Slot → Slot) : (s.updSlot i f).pending = s.pending := rfl
@[simp] theorem updSlot_free (i : SlotNo) (f : Slot → Slot) : (s.updSlot i f).free = s.free := rfl
@[simp] theorem updSlot_held (i : SlotNo) (f : Slot → Slot) : (s.updSlot i f).held = s.held := rfl
@[simp] theorem updSlot_hold (i : SlotNo) (f : Slot → Slot) : (s.updSlot i f).hold = s.hold := rfl
@[simp] theorem updSlot_line (i : SlotNo) (f : Slot → Slot) : (s.updSlot i f).line = s.line := rfl
@[simp] theorem updSlot_access (i : SlotNo) (f : Slot → Slot) : (s.updSlot i f).access = s.access := rfl
@[simp] theorem updSlot_session (i : SlotNo) (f : Slot → Slot) : (s.updSlot i f).session = s.session := rfl
@[simp] theorem updSlot_roster (i : SlotNo) (f : Slot → Slot) : (s.updSlot i f).roster = s.roster := rfl
@[simp] theorem updSlot_accept (i : SlotNo) (f : Slot → Slot) : (s.updSlot i f).accept = s.accept := rfl
@[simp] theorem updSlot_store (i : SlotNo) (f : Slot → Slot) : (s.updSlot i f).store = { s.store with slots := upd s.store.slots i f } := rfl
@[simp] theorem updSlot_pubs (i : SlotNo) (f : Slot → Slot) : (s.updSlot i f).pubs = s.pubs := rfl
@[simp] theorem updSlot_cont (i : SlotNo) (f : Slot → Slot) : (s.updSlot i f).cont = s.cont := rfl
@[simp] theorem updSlot_epoch (i : SlotNo) (f : Slot → Slot) : (s.updSlot i f).epoch = s.epoch := rfl
@[simp] theorem updSlot_port (i : SlotNo) (f : Slot → Slot) : (s.updSlot i f).port = s.port := rfl

/-! ### `State.updQueue` -/

@[simp] theorem updQueue_pending (i : QueueNo) (f : ReceiveQueue → ReceiveQueue) : (s.updQueue i f).pending = s.pending := rfl
@[simp] theorem updQueue_free (i : QueueNo) (f : ReceiveQueue → ReceiveQueue) : (s.updQueue i f).free = s.free := rfl
@[simp] theorem updQueue_held (i : QueueNo) (f : ReceiveQueue → ReceiveQueue) : (s.updQueue i f).held = s.held := rfl
@[simp] theorem updQueue_hold (i : QueueNo) (f : ReceiveQueue → ReceiveQueue) : (s.updQueue i f).hold = s.hold := rfl
@[simp] theorem updQueue_line (i : QueueNo) (f : ReceiveQueue → ReceiveQueue) : (s.updQueue i f).line = s.line := rfl
@[simp] theorem updQueue_access (i : QueueNo) (f : ReceiveQueue → ReceiveQueue) : (s.updQueue i f).access = s.access := rfl
@[simp] theorem updQueue_session (i : QueueNo) (f : ReceiveQueue → ReceiveQueue) : (s.updQueue i f).session = s.session := rfl
@[simp] theorem updQueue_roster (i : QueueNo) (f : ReceiveQueue → ReceiveQueue) : (s.updQueue i f).roster = s.roster := rfl
@[simp] theorem updQueue_accept (i : QueueNo) (f : ReceiveQueue → ReceiveQueue) : (s.updQueue i f).accept = s.accept := rfl
@[simp] theorem updQueue_store (i : QueueNo) (f : ReceiveQueue → ReceiveQueue) : (s.updQueue i f).store = { s.store with queues := upd s.store.queues i f } := rfl
@[simp] theorem updQueue_pubs (i : QueueNo) (f : ReceiveQueue → ReceiveQueue) : (s.updQueue i f).pubs = s.pubs := rfl
@[simp] theorem updQueue_cont (i : QueueNo) (f : ReceiveQueue → ReceiveQueue) : (s.updQueue i f).cont = s.cont := rfl
@[simp] theorem updQueue_epoch (i : QueueNo) (f : ReceiveQueue → ReceiveQueue) : (s.updQueue i f).epoch = s.epoch := rfl
@[simp] theorem updQueue_port (i : QueueNo) (f : ReceiveQueue → ReceiveQueue) : (s.updQueue i f).port = s.port := rfl

/-! ### `State.updRecall` -/

@[simp] theorem updRecall_pending (i : RecallPos) (f : RecallEntry → RecallEntry) : (s.updRecall i f).pending = s.pending := rfl
@[simp] theorem updRecall_free (i : RecallPos) (f : RecallEntry → RecallEntry) : (s.updRecall i f).free = s.free := rfl
@[simp] theorem updRecall_held (i : RecallPos) (f : RecallEntry → RecallEntry) : (s.updRecall i f).held = s.held := rfl
@[simp] theorem updRecall_hold (i : RecallPos) (f : RecallEntry → RecallEntry) : (s.updRecall i f).hold = s.hold := rfl
@[simp] theorem updRecall_line (i : RecallPos) (f : RecallEntry → RecallEntry) : (s.updRecall i f).line = s.line := rfl
@[simp] theorem updRecall_access (i : RecallPos) (f : RecallEntry → RecallEntry) : (s.updRecall i f).access = s.access := rfl
@[simp] theorem updRecall_session (i : RecallPos) (f : RecallEntry → RecallEntry) : (s.updRecall i f).session = s.session := rfl
@[simp] theorem updRecall_roster (i : RecallPos) (f : RecallEntry → RecallEntry) : (s.updRecall i f).roster = s.roster := rfl
@[simp] theorem updRecall_accept (i : RecallPos) (f : RecallEntry → RecallEntry) : (s.updRecall i f).accept = s.accept := rfl
@[simp] theorem updRecall_store (i : RecallPos) (f : RecallEntry → RecallEntry) : (s.updRecall i f).store = s.store := rfl
@[simp] theorem updRecall_pubs (i : RecallPos) (f : RecallEntry → RecallEntry) : (s.updRecall i f).pubs = s.pubs := rfl
@[simp] theorem updRecall_cont (i : RecallPos) (f : RecallEntry → RecallEntry) : (s.updRecall i f).cont = { s.cont with recalls := upd s.cont.recalls i f } := rfl
@[simp] theorem updRecall_epoch (i : RecallPos) (f : RecallEntry → RecallEntry) : (s.updRecall i f).epoch = s.epoch := rfl
@[simp] theorem updRecall_port (i : RecallPos) (f : RecallEntry → RecallEntry) : (s.updRecall i f).port = s.port := rfl

/-! ### `State.updSub` -/

@[simp] theorem updSub_pending (i : SubIndex) (f : SubEntry → SubEntry) : (s.updSub i f).pending = s.pending := rfl
@[simp] theorem updSub_free (i : SubIndex) (f : SubEntry → SubEntry) : (s.updSub i f).free = s.free := rfl
@[simp] theorem updSub_held (i : SubIndex) (f : SubEntry → SubEntry) : (s.updSub i f).held = s.held := rfl
@[simp] theorem updSub_hold (i : SubIndex) (f : SubEntry → SubEntry) : (s.updSub i f).hold = s.hold := rfl
@[simp] theorem updSub_line (i : SubIndex) (f : SubEntry → SubEntry) : (s.updSub i f).line = s.line := rfl
@[simp] theorem updSub_access (i : SubIndex) (f : SubEntry → SubEntry) : (s.updSub i f).access = s.access := rfl
@[simp] theorem updSub_session (i : SubIndex) (f : SubEntry → SubEntry) : (s.updSub i f).session = s.session := rfl
@[simp] theorem updSub_roster (i : SubIndex) (f : SubEntry → SubEntry) : (s.updSub i f).roster = s.roster := rfl
@[simp] theorem updSub_accept (i : SubIndex) (f : SubEntry → SubEntry) : (s.updSub i f).accept = { s.accept with table := upd s.accept.table i f } := rfl
@[simp] theorem updSub_store (i : SubIndex) (f : SubEntry → SubEntry) : (s.updSub i f).store = s.store := rfl
@[simp] theorem updSub_pubs (i : SubIndex) (f : SubEntry → SubEntry) : (s.updSub i f).pubs = s.pubs := rfl
@[simp] theorem updSub_cont (i : SubIndex) (f : SubEntry → SubEntry) : (s.updSub i f).cont = s.cont := rfl
@[simp] theorem updSub_epoch (i : SubIndex) (f : SubEntry → SubEntry) : (s.updSub i f).epoch = s.epoch := rfl
@[simp] theorem updSub_port (i : SubIndex) (f : SubEntry → SubEntry) : (s.updSub i f).port = s.port := rfl

/-! ### `State.updRoster` -/

@[simp] theorem updRoster_pending (i : Station) (f : RosterEntry → RosterEntry) : (s.updRoster i f).pending = s.pending := rfl
@[simp] theorem updRoster_free (i : Station) (f : RosterEntry → RosterEntry) : (s.updRoster i f).free = s.free := rfl
@[simp] theorem updRoster_held (i : Station) (f : RosterEntry → RosterEntry) : (s.updRoster i f).held = s.held := rfl
@[simp] theorem updRoster_hold (i : Station) (f : RosterEntry → RosterEntry) : (s.updRoster i f).hold = s.hold := rfl
@[simp] theorem updRoster_line (i : Station) (f : RosterEntry → RosterEntry) : (s.updRoster i f).line = s.line := rfl
@[simp] theorem updRoster_access (i : Station) (f : RosterEntry → RosterEntry) : (s.updRoster i f).access = s.access := rfl
@[simp] theorem updRoster_session (i : Station) (f : RosterEntry → RosterEntry) : (s.updRoster i f).session = s.session := rfl
@[simp] theorem updRoster_roster (i : Station) (f : RosterEntry → RosterEntry) : (s.updRoster i f).roster = upd s.roster i f := rfl
@[simp] theorem updRoster_accept (i : Station) (f : RosterEntry → RosterEntry) : (s.updRoster i f).accept = s.accept := rfl
@[simp] theorem updRoster_store (i : Station) (f : RosterEntry → RosterEntry) : (s.updRoster i f).store = s.store := rfl
@[simp] theorem updRoster_pubs (i : Station) (f : RosterEntry → RosterEntry) : (s.updRoster i f).pubs = s.pubs := rfl
@[simp] theorem updRoster_cont (i : Station) (f : RosterEntry → RosterEntry) : (s.updRoster i f).cont = s.cont := rfl
@[simp] theorem updRoster_epoch (i : Station) (f : RosterEntry → RosterEntry) : (s.updRoster i f).epoch = s.epoch := rfl
@[simp] theorem updRoster_port (i : Station) (f : RosterEntry → RosterEntry) : (s.updRoster i f).port = s.port := rfl

/-! ### The fields of a block that an update of one of its tables leaves -/

@[simp] theorem updPub_items (i : PubIndex) (f : PubEntry → PubEntry) : (s.updPub i f).pubs.items = s.pubs.items := rfl
@[simp] theorem updPub_placements (i : PubIndex) (f : PubEntry → PubEntry) :
    (s.updPub i f).pubs.placements = s.pubs.placements := rfl
@[simp] theorem updSlot_queues (i : SlotNo) (f : Slot → Slot) : (s.updSlot i f).store.queues = s.store.queues := rfl
@[simp] theorem updSlot_cellsFree (i : SlotNo) (f : Slot → Slot) : (s.updSlot i f).store.free = s.store.free := rfl
@[simp] theorem updQueue_slots (i : QueueNo) (f : ReceiveQueue → ReceiveQueue) :
    (s.updQueue i f).store.slots = s.store.slots := rfl
@[simp] theorem updQueue_cellsFree (i : QueueNo) (f : ReceiveQueue → ReceiveQueue) :
    (s.updQueue i f).store.free = s.store.free := rfl
@[simp] theorem updRecall_tracker (i : RecallPos) (f : RecallEntry → RecallEntry) :
    (s.updRecall i f).cont.tracker = s.cont.tracker := rfl
@[simp] theorem updSub_plan (i : SubIndex) (f : SubEntry → SubEntry) : (s.updSub i f).accept.plan = s.accept.plan := rfl

end Sys2Proof.Machine
end

