-- ==== Sys2Proof/Laws/Ops.lean ====
section
/-! SUPPORT. What each shared operation can do, once for all who call it. -/

namespace Sys2Proof.Machine

/-! ## Tables -/

/-- Entry `k` of an updated table. The index is a number, the form simp gives to table reads. -/
theorem upd_getElem_nat {α : Type} {n : Nat} (v : Vector α n) (i : Fin n) (f : α → α) (k : Nat) (hk : k < n) :
    (upd v i f)[k] = if i.val = k then f v[k] else v[k] := by
  unfold upd
  rw [Vector.getElem_set]
  split
  · rename_i h; subst h; rfl
  · rfl

theorem upd_getElem {α : Type} {n : Nat} (v : Vector α n) (i j : Fin n) (f : α → α) :
    (upd v i f)[j] = if i = j then f v[j] else v[j] := by
  have h := upd_getElem_nat v i f j.val j.isLt
  simp only [Fin.getElem_fin, h, Fin.ext_iff]

theorem upd_getElem_self {α : Type} {n : Nat} (v : Vector α n) (i : Fin n) (f : α → α) : (upd v i f)[i] = f v[i] := by
  simp [upd_getElem_nat]

theorem upd_getElem_of_ne {α : Type} {n : Nat} (v : Vector α n) {i j : Fin n} (f : α → α) (h : i ≠ j) :
    (upd v i f)[j] = v[j] := by
  rw [upd_getElem, if_neg h]

@[simp] theorem tabMap_getElem_nat {α β : Type} {n : Nat} (f : α → β) (v : Vector α n) (k : Nat) (hk : k < n) :
    (tabMap f v)[k] = f v[k] := by simp [tabMap]

theorem tabMap_getElem {α β : Type} {n : Nat} (f : α → β) (v : Vector α n) (i : Fin n) : (tabMap f v)[i] = f v[i] := by
  simp

theorem tabFind_some {α : Type} {n : Nat} {p : α → Bool} {v : Vector α n} {i : Fin n} (h : tabFind p v = some i) :
    p v[i] = true :=
  List.find?_some (p := fun i => p v[i]) h

theorem tabFind_none {α : Type} {n : Nat} {p : α → Bool} {v : Vector α n} (h : tabFind p v = none) (i : Fin n) :
    p v[i] = false := by
  have := List.find?_eq_none.mp h i (List.mem_finRange i)
  simpa using this

/-- The lowest index with the property, from what the statements say of it. -/
theorem tabFind_eq_some {α : Type} {n : Nat} {p : α → Bool} {v : Vector α n} {i : Fin n} (h : p v[i] = true)
    (hlow : ∀ j : Fin n, j < i → p v[j] = false) : tabFind p v = some i := by
  unfold tabFind
  rw [List.find?_eq_some_iff_getElem]
  refine ⟨h, i.val, by simp, by simp, ?_⟩
  intro j hj
  simpa using hlow ⟨j, by omega⟩ hj

theorem tabFind_eq_none {α : Type} {n : Nat} {p : α → Bool} {v : Vector α n} (h : ∀ j : Fin n, p v[j] = false) :
    tabFind p v = none := by
  unfold tabFind
  rw [List.find?_eq_none]
  intro j _
  simp only [h j]
  decide

theorem tabAny_eq_false {α : Type} {n : Nat} {p : α → Bool} {v : Vector α n} (h : ∀ j : Fin n, p v[j] = false) :
    tabAny p v = false := by
  unfold tabAny
  rw [List.any_eq_false]
  intro j _
  simp only [h j]
  decide

/-- An argument byte in range is its index. -/
theorem indexOf_eq_some {n : Nat} {b : Byte} {i : Fin n} (h : b.toNat = i.val) : indexOf n b = some i := by
  simp [indexOf, h]

theorem indexOf_eq_none {n : Nat} {b : Byte} (h : n ≤ b.toNat) : indexOf n b = none := by
  simp [indexOf]; omega

/-! ## Posting: only the port changes -/

theorem post_eq (s : State) (n : Notice) :
    ∃ l b, post s n = s.setPort { s.port with notices := l, lost := b } := by
  unfold post; split
  · exact ⟨_, s.port.lost, rfl⟩
  · exact ⟨s.port.notices, true, rfl⟩

@[simp] theorem post_line (s : State) (n : Notice) : (post s n).line = s.line := by unfold post; split <;> rfl
@[simp] theorem post_access (s : State) (n : Notice) : (post s n).access = s.access := by unfold post; split <;> rfl
@[simp] theorem post_session (s : State) (n : Notice) : (post s n).session = s.session := by unfold post; split <;> rfl
@[simp] theorem post_roster (s : State) (n : Notice) : (post s n).roster = s.roster := by unfold post; split <;> rfl
@[simp] theorem post_accept (s : State) (n : Notice) : (post s n).accept = s.accept := by unfold post; split <;> rfl
@[simp] theorem post_store (s : State) (n : Notice) : (post s n).store = s.store := by unfold post; split <;> rfl
@[simp] theorem post_pubs (s : State) (n : Notice) : (post s n).pubs = s.pubs := by unfold post; split <;> rfl
@[simp] theorem post_cont (s : State) (n : Notice) : (post s n).cont = s.cont := by unfold post; split <;> rfl
@[simp] theorem post_epoch (s : State) (n : Notice) : (post s n).epoch = s.epoch := by unfold post; split <;> rfl
@[simp] theorem post_held (s : State) (n : Notice) : (post s n).held = s.held := by unfold post; split <;> rfl
@[simp] theorem post_hold (s : State) (n : Notice) : (post s n).hold = s.hold := by unfold post; split <;> rfl
@[simp] theorem post_free (s : State) (n : Notice) : (post s n).free = s.free := by unfold post; split <;> rfl
@[simp] theorem post_pending (s : State) (n : Notice) : (post s n).pending = s.pending := by unfold post; split <;> rfl

theorem post_noticesFit (s : State) (n : Notice) (h : s.port.noticesFit) : (post s n).port.noticesFit := by
  unfold post
  split
  · rename_i hlt
    exact ⟨by simp; omega, fun _ => by simp⟩
  · rename_i hge
    refine ⟨h.1, fun _ hn => ?_⟩
    simp only [setPort_port] at hn
    simp [hn] at hge

/-- A property of states that posting one notice keeps is kept by posting several. -/
theorem postAll_keeps (P : State → Prop) (hP : ∀ s n, P s → P (post s n)) (ns : List Notice) (s : State) (h : P s) :
    P (postAll s ns) := by
  induction ns generalizing s with
  | nil => exact h
  | cons n ns ih => exact ih (post s n) (hP s n h)

/-- Posting changes nothing but the notice queue and its lost flag. -/
theorem postAll_eq (s : State) (ns : List Notice) :
    ∃ l b, postAll s ns = s.setPort { s.port with notices := l, lost := b } := by
  induction ns generalizing s with
  | nil => exact ⟨s.port.notices, s.port.lost, rfl⟩
  | cons n ns ih =>
    obtain ⟨l, b, h⟩ := post_eq s n
    obtain ⟨l', b', h'⟩ := ih (post s n)
    refine ⟨l', b', ?_⟩
    show postAll (post s n) ns = _
    rw [h', h]
    rfl

@[simp] theorem postAll_nil (s : State) : postAll s [] = s := rfl
@[simp] theorem postAll_cons (s : State) (n : Notice) (ns : List Notice) :
    postAll s (n :: ns) = postAll (post s n) ns := rfl
theorem postAll_append (s : State) (ms ns : List Notice) : postAll s (ms ++ ns) = postAll (postAll s ms) ns := by
  simp [postAll]

@[simp] theorem postAll_line (s : State) (ns : List Notice) : (postAll s ns).line = s.line := by
  obtain ⟨l, b, h⟩ := postAll_eq s ns; rw [h]; rfl
@[simp] theorem postAll_access (s : State) (ns : List Notice) : (postAll s ns).access = s.access := by
  obtain ⟨l, b, h⟩ := postAll_eq s ns; rw [h]; rfl
@[simp] theorem postAll_session (s : State) (ns : List Notice) : (postAll s ns).session = s.session := by
  obtain ⟨l, b, h⟩ := postAll_eq s ns; rw [h]; rfl
@[simp] theorem postAll_roster (s : State) (ns : List Notice) : (postAll s ns).roster = s.roster := by
  obtain ⟨l, b, h⟩ := postAll_eq s ns; rw [h]; rfl
@[simp] theorem postAll_accept (s : State) (ns : List Notice) : (postAll s ns).accept = s.accept := by
  obtain ⟨l, b, h⟩ := postAll_eq s ns; rw [h]; rfl
@[simp] theorem postAll_store (s : State) (ns : List Notice) : (postAll s ns).store = s.store := by
  obtain ⟨l, b, h⟩ := postAll_eq s ns; rw [h]; rfl
@[simp] theorem postAll_pubs (s : State) (ns : List Notice) : (postAll s ns).pubs = s.pubs := by
  obtain ⟨l, b, h⟩ := postAll_eq s ns; rw [h]; rfl
@[simp] theorem postAll_cont (s : State) (ns : List Notice) : (postAll s ns).cont = s.cont := by
  obtain ⟨l, b, h⟩ := postAll_eq s ns; rw [h]; rfl
@[simp] theorem postAll_epoch (s : State) (ns : List Notice) : (postAll s ns).epoch = s.epoch := by
  obtain ⟨l, b, h⟩ := postAll_eq s ns; rw [h]; rfl
@[simp] theorem postAll_held (s : State) (ns : List Notice) : (postAll s ns).held = s.held := by
  obtain ⟨l, b, h⟩ := postAll_eq s ns; rw [h]; rfl
@[simp] theorem postAll_hold (s : State) (ns : List Notice) : (postAll s ns).hold = s.hold := by
  obtain ⟨l, b, h⟩ := postAll_eq s ns; rw [h]; rfl
@[simp] theorem postAll_free (s : State) (ns : List Notice) : (postAll s ns).free = s.free := by
  obtain ⟨l, b, h⟩ := postAll_eq s ns; rw [h]; rfl
@[simp] theorem postAll_pending (s : State) (ns : List Notice) : (postAll s ns).pending = s.pending := by
  obtain ⟨l, b, h⟩ := postAll_eq s ns; rw [h]; rfl

theorem postAll_noticesFit (s : State) (ns : List Notice) (h : s.port.noticesFit) : (postAll s ns).port.noticesFit :=
  postAll_keeps (fun s => s.port.noticesFit) (fun s n => post_noticesFit s n) ns s h

/-- While there is room for all of them, the notices are appended in order with the clock's value. -/
theorem postAll_notices (s : State) (ns : List Notice) (h : s.port.notices.length + ns.length ≤ 32) :
    (postAll s ns).port =
      { s.port with notices := s.port.notices ++ ns.map fun n => { notice := n, stamp := s.line.clock } } := by
  induction ns generalizing s with
  | nil => simp
  | cons n ns ih =>
    simp only [List.length_cons] at h
    have hlt : s.port.notices.length < 32 := by omega
    have hp : post s n = s.setPort { s.port with
        notices := s.port.notices ++ [{ notice := n, stamp := s.line.clock }] } := by simp [post, hlt]
    rw [postAll_cons, ih (post s n) (by rw [hp]; simp; omega), hp]
    simp

theorem done_def (p : Posting) : p.done = postAll p.1 p.2 := rfl
@[simp] theorem andThen_fst (p : Posting) (f : State → Posting) : (p.andThen f).1 = (f p.1).1 := rfl
@[simp] theorem andThen_snd (p : Posting) (f : State → Posting) : (p.andThen f).2 = p.2 ++ (f p.1).2 := rfl

/-! ## Several blocks on one frame end -/

theorem mergeNotices_perm (k c : Nat) (xs ys : List Notice) : (mergeNotices k c xs ys).Perm (xs ++ ys) := by
  induction k generalizing c xs ys with
  | zero => exact List.Perm.refl _
  | succ k ih =>
    match xs, ys with
    | [], ys => exact List.Perm.refl _
    | x :: xs, [] => simp [mergeNotices]
    | x :: xs, y :: ys =>
      simp only [mergeNotices]
      split
      · exact (ih (c + 1) xs (y :: ys)).cons x
      · refine ((ih (c + 1) (x :: xs) ys).cons y).trans ?_
        exact (List.perm_middle (l₁ := x :: xs) (l₂ := ys) (a := y)).symm

/-- The freely ordered notices are those of the groups, each as often as it was posted. -/
theorem interleave_perm (c : Nat) (gs : List (List Notice)) : (interleave c gs).1.Perm gs.flatten := by
  induction gs with
  | nil => exact List.Perm.refl _
  | cons g gs ih =>
    simp only [interleave, List.flatten_cons]
    exact (mergeNotices_perm _ _ _ _).trans (ih.append_left g)

/-- A property that every block keeps is kept by all of them in turn. -/
theorem runBlocks_keeps (P : State → Prop) (fs : List (State → Posting)) (hf : ∀ f ∈ fs, ∀ s, P s → P (f s).1)
    (s : State) (h : P s) : P (runBlocks fs s).1 := by
  induction fs generalizing s with
  | nil => exact h
  | cons f fs ih =>
    exact ih (fun g hg => hf g (List.mem_cons_of_mem f hg)) (f s).1 (hf f List.mem_cons_self s h)

@[simp] theorem runBlocks_nil (s : State) : runBlocks [] s = (s, []) := rfl
@[simp] theorem runBlocks_cons (f : State → Posting) (fs : List (State → Posting)) (s : State) :
    runBlocks (f :: fs) s = ((runBlocks fs (f s).1).1, (f s).2 :: (runBlocks fs (f s).1).2) := rfl

/-- The blocks acting together: the state they leave, with the notices they posted in some order that keeps all of them,
and only the port and the count of free choices changed beside. -/
theorem actTogether_eq (fs : List (State → Posting)) (s : State) :
    ∃ ns n, ns.Perm (runBlocks fs s).2.flatten ∧
      actTogether fs s = postAll { (runBlocks fs s).1 with free := n } ns :=
  ⟨_, _, interleave_perm _ _, rfl⟩

/-- A property that every block keeps, and that neither posting nor the count of free choices touches, is kept. -/
theorem actTogether_keeps (P : State → Prop) (fs : List (State → Posting)) (hf : ∀ f ∈ fs, ∀ s, P s → P (f s).1)
    (hpost : ∀ s n, P s → P (post s n)) (hfree : ∀ (s : State) n, P s → P { s with free := n }) (s : State) (h : P s) :
    P (actTogether fs s) := by
  obtain ⟨ns, n, -, e⟩ := actTogether_eq fs s
  rw [e]
  exact postAll_keeps P hpost ns _ (hfree _ n (runBlocks_keeps P fs hf s h))

/-! ## The transmit list -/

theorem insertItem_perm (it : Item) (l : List Item) : (insertItem it l).Perm (it :: l) := by
  induction l with
  | nil => exact List.Perm.refl _
  | cons x xs ih =>
    simp only [insertItem]
    split
    · exact List.Perm.refl _
    · exact (ih.cons x).trans (List.Perm.swap it x xs)

theorem mem_insertItem {it x : Item} {l : List Item} : x ∈ insertItem it l ↔ x = it ∨ x ∈ l := by
  rw [(insertItem_perm it l).mem_iff, List.mem_cons]

@[simp] theorem placeWith_items (s : State) (k : ItemKind) (c : FrameClass) (n : Nat) :
    (placeWith s k c n).pubs.items =
      insertItem { kind := k, cls := c, attempts := n, placed := s.pubs.placements } s.pubs.items := rfl
@[simp] theorem placeWith_placements (s : State) (k : ItemKind) (c : FrameClass) (n : Nat) :
    (placeWith s k c n).pubs.placements = s.pubs.placements + 1 := rfl
@[simp] theorem placeWith_table (s : State) (k : ItemKind) (c : FrameClass) (n : Nat) :
    (placeWith s k c n).pubs.table = s.pubs.table := rfl
theorem placeWith_eq (s : State) (k : ItemKind) (c : FrameClass) (n : Nat) :
    placeWith s k c n = s.setPubs (placeWith s k c n).pubs := rfl
@[simp] theorem removeItem_items (s : State) (k : ItemKind) :
    (removeItem s k).pubs.items = s.pubs.items.filter fun it => it.kind != k := rfl
@[simp] theorem removeItem_placements (s : State) (k : ItemKind) :
    (removeItem s k).pubs.placements = s.pubs.placements := rfl
@[simp] theorem removeItem_table (s : State) (k : ItemKind) : (removeItem s k).pubs.table = s.pubs.table := rfl
theorem removeItem_eq (s : State) (k : ItemKind) : removeItem s k = s.setPubs (removeItem s k).pubs := rfl

/-! ## Bookings -/

/-- Settling the booking changes the booking alone. -/
theorem settleBooking_eq (s : State) :
    settleBooking s = s.setAccess { s.access with booking := (settleBooking s).access.booking } := by
  unfold settleBooking
  split
  · split <;> rfl
  · rfl

/-- Booking at a gap end or at a cycle start changes the booking alone. -/
theorem bookAtCycle_eq (s : State) :
    bookAtCycle s = s.setAccess { s.access with booking := (bookAtCycle s).access.booking } := by
  unfold bookAtCycle
  split <;> rfl

/-- Without permission there is no booking (R27). -/
theorem settleBooking_no_permission (s : State) (h : permission s = false) :
    settleBooking s = s.setAccess { s.access with booking := none } := by simp [settleBooking, h]

theorem ownSlot_val (s : State) (d : FrameClass) : (ownSlot s d).val = ownSlotNumber s d := by
  have h : position (ownNumber s) s.access.bases[d] < 32 := Nat.mod_lt _ (by decide)
  have := d.isLt
  show (d.val * 32 + position (ownNumber s) s.access.bases[d]) % 256 = _
  rw [Nat.mod_eq_of_lt (by omega)]
  rfl

/-- The late slot is the first own slot of the classes from `c` on that has not begun, and none when all have (R25). -/
theorem lateSlot_lateBooked (s : State) (e : Nat) (c : FrameClass) : LateBooked s e c (lateSlot s e c) := by
  unfold lateSlot slotStart
  refine ⟨fun b hb => ?_, fun hn d hd => ?_⟩
  · obtain ⟨d, hf, hd⟩ := Option.map_eq_some_iff.mp hb
    obtain ⟨hp, i, hi, hget, hlow⟩ := List.find?_eq_some_iff_getElem.mp hf
    simp only [Bool.and_eq_true, decide_eq_true_eq, ownSlot_val] at hp
    refine ⟨d, hp.1, by rw [← hd, ownSlot_val], hp.2, fun d' hc hlt => ?_⟩
    have hdi : i = d.val := by rw [← hget, List.getElem_finRange]; rfl
    have := hlow d'.val (by rw [hdi]; exact hlt)
    simpa [hc, ownSlot_val] using this
  · have := List.find?_eq_none.mp (Option.map_eq_none_iff.mp hn) d (List.mem_finRange d)
    simpa [hd, ownSlot_val] using this

/-- What settling does to a booking that the event itself has not touched (R25, R27). -/
theorem settleBooking_settled {s u : State} (hb : u.access.booking = s.access.booking)
    (hf : u.access.inFlight = s.access.inFlight) (hs : u.access.slotTime = s.access.slotTime) :
    SettledBooking s (settleBooking u) := by
  have hp : permission (settleBooking u) = permission u := by rw [settleBooking_eq]; rfl
  have hi : (settleBooking u).pubs = u.pubs := by rw [settleBooking_eq]; rfl
  refine ⟨fun h => ?_, fun h => ⟨fun hkeep => ?_, fun e it rest hb0 hf0 hs0 hit => ?_⟩⟩
  · rw [settleBooking_no_permission u (hp ▸ h)]; rfl
  · rw [hi] at hkeep
    unfold settleBooking
    rw [if_pos (hp ▸ h)]
    split
    · rename_i it hb' hf' hs' hit
      rcases hkeep with hk | hk | hk | hk
      · exact absurd (hb ▸ hb') hk
      · exact absurd (hf ▸ hf') hk
      · rw [← hs, hs'] at hk; cases hk
      · rw [hk] at hit; cases hit
    · exact hb
  · rw [hi] at hit
    have hlate : settleBooking u = u.setAccess { u.access with booking := lateSlot u e it.cls } := by
      unfold settleBooking
      rw [if_pos (hp ▸ h), hb, hf, hs, hb0, hf0, hs0, hit]
      rfl
    rw [hlate]
    exact lateSlot_lateBooked u e it.cls

/-! ## The fault score -/

/-- A new score changes the score and the standing alone. -/
theorem rescore_eq (s : State) (n : Nat) :
    (rescore s n).1 = s.setAccess { s.access with score := n, standing := nextStanding s.access.standing n } := rfl

/-- The table of R36. -/
theorem nextStanding_row (before : Standing) (n : Nat) : standingRow before n (nextStanding before n) := by
  unfold standingRow nextStanding
  cases before <;> grind

/-- A new score of at most 255 leaves the standing as R36 gives it. -/
theorem rescore_scoreFits (s : State) (n : Nat) (h : n ≤ 255) : (rescore s n).1.access.scoreFits := by
  unfold AccessController.scoreFits
  simp only [rescore_eq, setAccess_access]
  cases s.access.standing <;> simp only [nextStanding] <;> repeat' split
  all_goals grind

/-! ## Commands and events -/

theorem whenRunning_held (s : State) (act : State → State) (h : s.held = true) : whenRunning s act = s := by
  simp [whenRunning, h]

theorem whenRunning_running (s : State) (act : State → State) (h : s.held = false) : whenRunning s act = act s := by
  simp [whenRunning, h]

theorem canTake_of_executes {s : State} {code : Byte} {args : List Byte} (h : Executes s code args) :
    canTake s code args = true := by simp [canTake, h.1, h.2]

/-- The command in the port: its owner's effect, and the response. -/
theorem takeCommand_executes {s : State} {code : Byte} {args : List Byte} (body : State → State × Response)
    (h : Executes s code args) : takeCommand s code args body = answered (body s).1 (body s).2 := by
  simp [takeCommand, canTake_of_executes h, answered, State.setPort]

/-- A command that cannot be taken changes nothing. -/
theorem takeCommand_not {s : State} {code : Byte} {args : List Byte} (body : State → State × Response)
    (h : canTake s code args = false) : takeCommand s code args body = s := by simp [takeCommand, h]

/-- A property of states that the body keeps, and that the response does not touch, is kept by the command. -/
theorem takeCommand_keeps (P : State → Prop) (code : Byte) (args : List Byte) (body : State → State × Response)
    (hb : ∀ s, P s → P (body s).1)
    (hr : ∀ (s : State) r, P s → P (s.setPort { s.port with state := .responseWaiting r })) (s : State) (h : P s) :
    P (takeCommand s code args body) := by
  unfold takeCommand
  split
  · exact hr _ _ (hb s h)
  · exact h

end Sys2Proof.Machine
end

