-- ==== Sys2Proof/Laws/Blocks.lean ====
section
/-! SUPPORT. Which blocks of State the operations of one block can change. -/

namespace Sys2Proof.Machine

/-! ## Publications and the transmit list -/

/-- Making an entry pending changes the Publication Unit alone. -/
theorem makePendingNew_eq (s : State) (i : PubIndex) : makePendingNew s i = s.setPubs (makePendingNew s i).pubs := by
  unfold makePendingNew
  simp only
  split
  · split <;> rfl
  · rfl

theorem makePendingRepeat_eq (s : State) (i : PubIndex) :
    makePendingRepeat s i = s.setPubs (makePendingRepeat s i).pubs := rfl

/-- Composing two changes of the Publication Unit. -/
theorem setPubs_trans {s t u : State} (h : t = s.setPubs t.pubs) (h' : u = t.setPubs u.pubs) : u = s.setPubs u.pubs := by
  rw [h', h]; rfl

theorem updPub_eq (s : State) (i : PubIndex) (f : PubEntry → PubEntry) : s.updPub i f = s.setPubs (s.updPub i f).pubs := rfl

theorem announceEntry_eq (s : State) (i : PubIndex) : announceEntry s i = s.setPubs (announceEntry s i).pubs := by
  unfold announceEntry
  split
  · exact setPubs_trans (setPubs_trans (updPub_eq s i _) (makePendingNew_eq _ i)) (updPub_eq _ i _)
  · rfl

/-- The announce changes the Publication Unit alone. -/
theorem announce_eq (s : State) : announce s = s.setPubs (announce s).pubs := by
  unfold announce
  generalize List.finRange 32 = is
  induction is generalizing s with
  | nil => rfl
  | cons i is ih => exact setPubs_trans (announceEntry_eq s i) (ih (announceEntry s i))

theorem updateSent_eq (s : State) (i : PubIndex) (b : Bool) : updateSent s i b = s.setPubs (updateSent s i b).pubs := by
  unfold updateSent
  simp only
  split
  · rfl
  all_goals
    split
    · exact setPubs_trans (updPub_eq s i _) (makePendingNew_eq _ i)
    · rfl

theorem updateCollided_eq (s : State) (i : PubIndex) : updateCollided s i = s.setPubs (updateCollided s i).pubs := by
  unfold updateCollided
  split
  · rfl
  all_goals split <;> rfl

theorem answerPeer_eq (s : State) (topic : Topic) : answerPeer s topic = s.setPubs (answerPeer s topic).pubs := by
  unfold answerPeer
  split
  · rfl
  · simp only
    split
    · rfl
    · split
      · rfl
      · split
        · exact setPubs_trans (makePendingNew_eq s _) (updPub_eq _ _ _)
        · rfl

theorem ownershipConflict_eq (s : State) (topic : Topic) (x : Station) :
    (ownershipConflict s topic x).1 = s.setPubs (ownershipConflict s topic x).1.pubs := by
  unfold ownershipConflict
  split
  · rfl
  · split
    · rfl
    · split
      · simp only
        split
        · exact setPubs_trans (updPub_eq s _ _) (makePendingNew_eq _ _)
        · rfl
      · rfl

/-- At a frame end the Publication Unit changes itself alone. -/
theorem publicationAtFrame_eq (own : Bool) (f : Frame) (s : State) :
    (publicationAtFrame own f s).1 = s.setPubs (publicationAtFrame own f s).1.pubs := by
  unfold publicationAtFrame
  split
  · rfl
  · split
    · exact ownershipConflict_eq s _ _
    · exact answerPeer_eq s _
    all_goals rfl

/-! ## Recalls -/

/-- Composing two changes of the Continuity Unit and the Publication Unit. -/
theorem setContPubs_trans {s t u : State} (h : t = (s.setCont t.cont).setPubs t.pubs)
    (h' : u = (t.setCont u.cont).setPubs u.pubs) : u = (s.setCont u.cont).setPubs u.pubs := by
  rw [h', h]; rfl

/-- An automatic recall request changes the Continuity Unit and the Publication Unit alone. -/
theorem requestRecall_eq (s : State) (topic : Topic) (o : RecallOrigin) :
    requestRecall s topic o = (s.setCont (requestRecall s topic o).cont).setPubs (requestRecall s topic o).pubs := by
  unfold requestRecall
  split
  · split <;> rfl
  · rfl

/-- So do the requests of a slot that has gone stale. -/
theorem staleRequests_eq (s : State) (k : SlotNo) :
    staleRequests s k = (s.setCont (staleRequests s k).cont).setPubs (staleRequests s k).pubs := by
  unfold staleRequests
  generalize List.finRange 32 = is
  induction is generalizing s with
  | nil => rfl
  | cons i is ih =>
    simp only [List.foldl_cons]
    refine setContPubs_trans ?_ (ih _)
    split
    · exact requestRecall_eq s _ _
    · rfl

theorem suppressRecall_eq (s : State) (topic : Topic) :
    suppressRecall s topic = (s.setCont (suppressRecall s topic).cont).setPubs (suppressRecall s topic).pubs := by
  unfold suppressRecall
  split
  · split <;> rfl
  · rfl

theorem answerRecall_eq (s : State) (topic : Topic) :
    (answerRecall s topic).1 =
      (s.setCont (answerRecall s topic).1.cont).setPubs (answerRecall s topic).1.pubs := by
  unfold answerRecall
  split
  · simp only
    split <;> rfl
  · rfl

/-- At a frame end the Continuity Unit changes itself and the transmit list alone. -/
theorem continuityAtFrame_eq (own : Bool) (f : Frame) (s : State) :
    (continuityAtFrame own f s).1 =
      (s.setCont (continuityAtFrame own f s).1.cont).setPubs (continuityAtFrame own f s).1.pubs := by
  unfold continuityAtFrame
  split
  · exact answerRecall_eq s _
  · split
    · rfl
    · exact suppressRecall_eq s _
  all_goals rfl

/-! ## Epochs -/

theorem capture_eq (s : State) (e : SeqNo) (x : Station) : (capture s e x).1 = s.setEpoch (capture s e x).1.epoch := by
  unfold capture
  split
  · rfl
  · split
    · rfl
    · simp only
      split <;> rfl

/-- Composing two changes of the Epoch Unit and the Publication Unit. -/
theorem setEpochPubs_trans {s t u : State} (h : t = (s.setEpoch t.epoch).setPubs t.pubs)
    (h' : u = (t.setEpoch u.epoch).setPubs u.pubs) : u = (s.setEpoch u.epoch).setPubs u.pubs := by
  rw [h', h]; rfl

theorem settleRequest_eq (own : Bool) (e : SeqNo) (x : Station) (s : State) :
    (settleRequest own e x s).1 =
      (s.setEpoch (settleRequest own e x s).1.epoch).setPubs (settleRequest own e x s).1.pubs := by
  unfold settleRequest
  split
  · rfl
  · split <;> rfl

/-- At a frame end the Epoch Unit changes itself and the transmit list alone. -/
theorem epochAtFrame_eq (own : Bool) (f : Frame) (s : State) :
    (epochAtFrame own f s).1 =
      (s.setEpoch (epochAtFrame own f s).1.epoch).setPubs (epochAtFrame own f s).1.pubs := by
  unfold epochAtFrame
  split
  · exact setEpochPubs_trans
      (by rw [capture_eq]; rfl) (settleRequest_eq own _ _ _)
  all_goals rfl

/-! ## The roster -/

theorem identifyPeer_eq (s : State) (x : Station) (b : Bool) (l : Option SeqNo) (t : UnitTag) :
    (identifyPeer s x b l t).1 =
      (s.setRoster (identifyPeer s x b l t).1.roster).setCont (identifyPeer s x b l t).1.cont := by
  unfold identifyPeer
  simp only
  split <;> rfl

/-- At a frame end the Roster changes itself and the tracker alone. -/
theorem rosterAtFrame_eq (own : Bool) (f : Frame) (s : State) :
    (rosterAtFrame own f s).1 =
      (s.setRoster (rosterAtFrame own f s).1.roster).setCont (rosterAtFrame own f s).1.cont := by
  unfold rosterAtFrame
  split
  · rfl
  · split
    · rfl
    · unfold hearPeer
      simp only
      split
      · simp only [Posting.andThen]; rw [identifyPeer_eq]; rfl
      · simp only [Posting.andThen]; rw [identifyPeer_eq]; rfl
      all_goals rfl

/-! ## Reservations -/

/-- Giving a reserved target back changes the Message Store alone. -/
theorem releaseTarget_eq (s : State) (t : Target) : releaseTarget s t = s.setStore (releaseTarget s t).store := by
  unfold releaseTarget
  split <;> rfl

/-- Settling a reserved target changes the Message Store alone. -/
theorem settleTarget_eq (own : Bool) (x : Station) (topic : Topic) (seq : SeqNo) (a b : Bool) (p : List Byte)
    (c : Option Classification) (s : State) (r : Reserved) :
    settleTarget own x topic seq a b p c s r = s.setStore (settleTarget own x topic seq a b p c s r).store := by
  unfold settleTarget
  split
  · split <;> rfl
  · split
    · rfl
    · exact releaseTarget_eq s _

/-- A visit of the walk changes the Acceptance Unit and the Message Store alone. -/
theorem visit_eq (h : Header) (s : State) (i : SubIndex) :
    (visit h s i).1 = (s.setAccept (visit h s i).1.accept).setStore (visit h s i).1.store := by
  unfold visit
  simp only
  split
  · split
    · rfl
    · split
      · rename_i k hk; simp only [hk]; rfl
      · rename_i q hq; split
        · simp only [hq]; rfl
        · rfl
  · rfl

/-- So does the walk. -/
theorem walk_eq (h : Header) (is : List SubIndex) (s : State) :
    walk h is s = (s.setAccept (walk h is s).accept).setStore (walk h is s).store := by
  induction is generalizing s with
  | nil => rfl
  | cons i is ih =>
    unfold walk
    simp only
    split
    · rw [ih, visit_eq]; rfl
    · exact visit_eq h s i

/-- Composing two changes of the Message Store. -/
theorem setStore_trans {s t u : State} (h : t = s.setStore t.store) (h' : u = t.setStore u.store) :
    u = s.setStore u.store := by
  rw [h', h]; rfl

theorem releaseAll_eq (rs : List Reserved) (s : State) :
    rs.foldl (fun s r => releaseTarget s r.target) s =
      s.setStore (rs.foldl (fun s r => releaseTarget s r.target) s).store := by
  induction rs generalizing s with
  | nil => rfl
  | cons r rs ih => exact setStore_trans (releaseTarget_eq s _) (ih _)

/-- Closing the frame changes the Acceptance Unit alone. -/
theorem closeFrame_eq (s : State) : closeFrame s = s.setAccept (closeFrame s).accept := rfl

/-- Releasing the frame's reservations changes the Acceptance Unit and the Message Store alone. -/
theorem releaseFrame_eq (s : State) :
    releaseFrame s = (s.setAccept (releaseFrame s).accept).setStore (releaseFrame s).store := by
  unfold releaseFrame
  rw [closeFrame_eq, releaseAll_eq]
  rfl

/-- A frame that is not CLEAN leaves an empty reservation list (R82). -/
theorem releaseFrame_plan (s : State) : (releaseFrame s).accept.plan = Plan.empty := rfl

end Sys2Proof.Machine
end

