-- ==== Sys2Proof/Laws/Echo.lean ====
section
/-! SUPPORT. What the echo comparator reports, and what a reported mismatch changes. -/

namespace Sys2Proof.Machine

/-! ## The comparator -/

/-- Where two runs of levels first differ. -/
theorem firstDifference_eq_some {ds rs : List LineLevel} {m : Nat} :
    firstDifference ds rs = some m ↔
      (∃ d r, ds[m]? = some d ∧ rs[m]? = some r ∧ d ≠ r) ∧
      ∀ k, k < m → ∀ d r, ds[k]? = some d → rs[k]? = some r → d = r := by
  induction ds generalizing rs m with
  | nil => simp [firstDifference]
  | cons d ds ih =>
    cases rs with
    | nil => simp [firstDifference]
    | cons r rs =>
      by_cases h : d = r
      · subst h
        cases m with
        | zero => simp [firstDifference]
        | succ m =>
          simp only [firstDifference, if_true, Option.map_eq_some_iff, Nat.add_right_cancel_iff, exists_eq_right, ih,
            List.getElem?_cons_succ]
          refine and_congr_right fun _ => ⟨fun before k hk => ?_, fun before k hk => ?_⟩
          · cases k with
            | zero => simp
            | succ k => simpa using before k (by omega)
          · simpa using before (k + 1) (by omega)
      · cases m with
        | zero => simp [firstDifference, h]
        | succ m =>
          simp only [firstDifference, h, if_false, Option.some.injEq, Nat.zero_ne_add_one, false_iff, not_and]
          intro _ before
          exact h (before 0 (Nat.succ_pos _) d r rfl rfl)

/-- What is received as it was driven shows no difference. -/
theorem firstDifference_self (ds rest : List LineLevel) : firstDifference ds (ds ++ rest) = none := by
  induction ds with
  | nil => cases rest <;> rfl
  | cons d ds ih => simp [firstDifference, ih]

/-- With nothing in flight nothing is compared. -/
theorem echoMismatch_of_none {s : State} (h : s.access.inFlight = none) (offset : Nat) (received : List LineLevel) :
    echoMismatch s offset received = none := by
  simp [echoMismatch, comparing, h]

/-- During the jam nothing is compared. -/
theorem echoMismatch_of_jamming {s : State} (h : s.line.send.isJamming = true) (offset : Nat)
    (received : List LineLevel) : echoMismatch s offset received = none := by
  simp [echoMismatch, comparing, h]

/-- A foreign frame is compared with nothing. -/
theorem frameMismatch_of_foreign {r : Reception} (h : r.own = false) (s : State) (levels : List LineLevel) :
    frameMismatch s r levels = none := by
  simp [frameMismatch, h]

/-- A foreign frame's end shows no mismatch. -/
theorem endMismatch_of_foreign {r : Reception} (h : r.own = false) (s : State) (levels : List LineLevel) :
    endMismatch s r levels = none := by
  simp [endMismatch, frameMismatch, h]

/-- After a collision a frame's end shows none. -/
theorem endMismatch_of_not_comparing {s : State} (h : comparing s = false) (r : Reception) (levels : List LineLevel) :
    endMismatch s r levels = none := by
  simp [endMismatch, frameMismatch, echoMismatch, h]

/-- The outcome of a foreign frame is the one of R12. -/
theorem outcomeOf_of_foreign {r : Reception} (h : r.own = false) (s : State) (rx : Receiver) :
    outcomeOf s r rx = judge rx := by
  unfold outcomeOf
  split <;> simp_all

/-- An own frame is CLEAN only while its attempt is under way. -/
theorem outcomeOf_clean {s : State} {r : Reception} {rx : Receiver} {f : Frame} :
    outcomeOf s r rx = .clean f ↔ judge rx = .clean f ∧ (r.own = true → comparing s = true) := by
  unfold outcomeOf
  split
  · split <;> simp_all
  all_goals simp_all

/-- After a collision an own frame that R12 would call CLEAN is BROKEN, and every other outcome is the one of R12. -/
theorem outcomeOf_of_collided {s : State} {r : Reception} (own : r.own = true) (h : comparing s = false)
    (rx : Receiver) : outcomeOf s r rx = match judge rx with | .clean _ => .broken | o => o := by
  unfold outcomeOf
  split <;> simp_all

/-! ## The collision -/

@[simp] theorem collideAt_none (s : State) : collideAt none s = s := rfl

theorem collideAt_some {s : State} {f : Flight} (h : s.access.inFlight = some f) (n : Nat) :
    collideAt (some n) s = collide f s := by
  simp [collideAt, h]

/-- A collision changes the send side, the Access Controller, the attempt counts and the notices. -/
theorem collide_eq (f : Flight) (s : State) :
    collide f s = { s with
      line := { s.line with send := .jamming (24 * lineBit s) }, access := (collide f s).access,
      pubs := (countAttempt s f.kind).pubs, port := (collide f s).port } := by
  unfold collide
  simp only []
  generalize hp : raiseScore _ 8 = p
  obtain ⟨l, b, h⟩ := postAll_eq p.1 p.2
  rw [settleBooking_eq, done_def, h, ← hp]
  rfl

/-- Without a mismatch the own start mark is neither implied nor cut. -/
@[simp] theorem ownMark_none (received : List LineLevel) (s : State) : ownMark received none s = s := rfl

/-- A COLLISION without a mismatch changes nothing. -/
theorem collision_of_none {s : State} {received : List LineLevel} (h : echoMismatch s 0 received = none) :
    collision received s = s := by
  simp [collision, h]

end Sys2Proof.Machine
end

