-- ==== Sys2Proof/Laws/Recalls.lean ====
section
/-! SUPPORT. What automatic recall requests, taken one at a time, change (R110, R147). -/

namespace Sys2Proof.Machine

theorem ownsTopic_iff (s : State) (topic : Topic) : ownsTopic s topic = true ↔ publishes s topic := by
  simp [ownsTopic, tabAny, publishes, List.any_eq_true]

/-- No entry of the recall list that is not FREE has the topic. -/
theorem recallAt_none {s : State} {topic : Topic} (h : recallAt s topic = none) (p : RecallPos)
    (hp : (s.cont.recalls[p]).state ≠ .free) : (s.cont.recalls[p]).topic ≠ topic := by
  have := tabFind_none h p
  simp only [Bool.and_eq_false_iff, bne_eq_false_iff_eq, beq_eq_false_iff_ne] at this
  exact this.resolve_left hp

theorem recallAt_some {s : State} {topic : Topic} {p : RecallPos} (h : recallAt s topic = some p) :
    (s.cont.recalls[p]).state ≠ .free ∧ (s.cont.recalls[p]).topic = topic := by
  simpa using tabFind_some h

theorem freeRecall_none {s : State} (h : freeRecall s = none) (p : RecallPos) : (s.cont.recalls[p]).state ≠ .free := by
  simpa using tabFind_none h p

/-- The lowest FREE position. -/
theorem freeRecall_some {s : State} {p : RecallPos} (h : freeRecall s = some p) :
    (s.cont.recalls[p]).state = .free ∧ ∀ q : RecallPos, q < p → (s.cont.recalls[q]).state ≠ .free := by
  refine ⟨by simpa using tabFind_some h, fun q hq => ?_⟩
  obtain ⟨-, i, hi, hget, hlow⟩ := List.find?_eq_some_iff_getElem.mp h
  have hpi : i = p.val := by rw [← hget, List.getElem_finRange]; rfl
  have := hlow q.val (by rw [hpi]; exact hq)
  simpa using this

/-- The position of a new item leaves the items in their order. -/
theorem sublist_insertItem (it : Item) (l : List Item) : l.Sublist (insertItem it l) := by
  induction l with
  | nil => exact List.nil_sublist _
  | cons x xs ih =>
    unfold insertItem
    split
    · exact List.sublist_cons_self _ _
    · exact ih.cons_cons x

/-- Requests that are all declined. -/
theorem Recalled.of_same {s t : State} {topics : List Topic} {o : RecallOrigin} (hc : t.cont = s.cont) (hp : t.pubs = s.pubs)
    (h : s.session.state = .member → s.access.standing = .normal → ∀ topic ∈ topics, ¬publishes s topic →
      (∃ p : RecallPos, (s.cont.recalls[p]).state ≠ .free ∧ (s.cont.recalls[p]).topic = topic) ∨
      ∀ p : RecallPos, (s.cont.recalls[p]).state ≠ .free) : Recalled s t topics o := by
  unfold Recalled
  rw [hc, hp]
  refine ⟨fun _ => ⟨rfl, rfl⟩, rfl, rfl, ⟨List.Sublist.refl _, Nat.le_refl _⟩, fun _ _ => rfl, fun p h1 h2 => absurd h1 h2,
    fun hm hn topic ht ho => ?_⟩
  rcases h hm hn topic ht ho with h | h
  · exact Or.inl h
  · exact Or.inr fun p => ⟨h p, fun hf => absurd hf (h p)⟩

/-- One more request behind others. -/
theorem Recalled.request {s t : State} {ts : List Topic} {o : RecallOrigin} (h : Recalled s t ts o)
    (hs : t.session = s.session) (ha : t.access.standing = s.access.standing) (x : Topic) :
    Recalled s (requestRecall t x o) (ts ++ [x]) o := by
  have published : ∀ topic, publishes t topic ↔ publishes s topic := fun topic => by
    unfold publishes; rw [h.2.2.1]
  by_cases hmn : s.session.state = .member ∧ s.access.standing = .normal
  case neg =>
    have hreq : requestRecall t x o = t := by
      unfold requestRecall
      rw [hs, ha, if_neg (fun hh => hmn ⟨hh.1, hh.2.1⟩)]
    rw [hreq]
    have := h.1 (by
      by_cases hm : s.session.state = .member
      · exact Or.inr (Or.inl fun hn => hmn ⟨hm, hn⟩)
      · exact Or.inl hm)
    exact Recalled.of_same this.1 this.2 fun hm hn => absurd ⟨hm, hn⟩ hmn
  obtain ⟨-, htr, htab, hsub, hkeep, hnew, hall⟩ := h
  obtain ⟨hm, hn⟩ := hmn
  have inside : ∀ a ∈ ts, (ts ++ [x]).idxOf a = ts.idxOf a := fun a h => List.idxOf_append_of_mem h
  have before : ∀ a ∈ ts, x ∉ ts → (ts ++ [x]).idxOf a < (ts ++ [x]).idxOf x := fun a ha hx => by
    rw [inside a ha, List.idxOf_append_of_notMem hx]
    have := List.idxOf_lt_length_iff.mpr ha
    omega
  by_cases hcond : ownsTopic t x = false ∧ recallAt t x = none
  case neg =>
    have hreq : requestRecall t x o = t := by
      unfold requestRecall
      rw [if_neg (fun hh => hcond hh.2.2)]
    rw [hreq]
    refine ⟨fun h => ?_, htr, htab, hsub, hkeep, fun p h1 h2 => ?_, fun _ _ topic ht ho => ?_⟩
    · rcases h with h | h | h
      · exact absurd hm h
      · exact absurd hn h
      · exact absurd h (by simp)
    · obtain ⟨a, b, c, d, e, f⟩ := hnew p h1 h2
      refine ⟨a, List.mem_append_left _ b, c, d, fun q hq hf => ⟨(e q hq hf).1, ?_⟩, f⟩
      obtain ⟨hq1, hq2⟩ := e q hq hf
      rw [inside _ b, inside _ (hnew q hf hq1).2.1]
      exact hq2
    · by_cases hts : topic ∈ ts
      · rcases hall hm hn topic hts ho with h | h
        · exact Or.inl h
        · refine Or.inr fun p => ⟨(h p).1, fun hf => ?_⟩
          rw [inside _ hts, inside _ (hnew p hf (h p).1).2.1]
          exact (h p).2 hf
      · have hx : topic = x := by simpa [hts] using ht
        subst hx
        have hno : ownsTopic t topic = false := by
          rw [Bool.eq_false_iff]
          exact fun h => ho ((published topic).mp ((ownsTopic_iff t topic).mp h))
        cases hr : recallAt t topic with
        | none => exact absurd ⟨hno, hr⟩ hcond
        | some p => exact Or.inl ⟨p, recallAt_some hr⟩
  obtain ⟨hno, hr⟩ := hcond
  have hox : ¬publishes s x := fun h => by
    have := (ownsTopic_iff t x).mpr ((published x).mpr h)
    rw [hno] at this
    exact absurd this (by decide)
  cases hf : freeRecall t with
  | none =>
    have full := freeRecall_none hf
    have hreq : requestRecall t x o = t := by
      unfold requestRecall
      rw [hf]
      split <;> rfl
    rw [hreq]
    refine ⟨fun h => ?_, htr, htab, hsub, hkeep, fun p h1 h2 => ?_, fun _ _ topic ht ho => ?_⟩
    · rcases h with h | h | h
      · exact absurd hm h
      · exact absurd hn h
      · exact absurd h (by simp)
    · obtain ⟨a, b, c, d, e, f⟩ := hnew p h1 h2
      refine ⟨a, List.mem_append_left _ b, c, d, fun q hq hf => ⟨(e q hq hf).1, ?_⟩, f⟩
      rw [inside _ b, inside _ (hnew q hf (full q)).2.1]
      exact (e q hq hf).2
    · by_cases hts : topic ∈ ts
      · rcases hall hm hn topic hts ho with h | h
        · exact Or.inl h
        · refine Or.inr fun p => ⟨(h p).1, fun hf => ?_⟩
          rw [inside _ hts, inside _ (hnew p hf (h p).1).2.1]
          exact (h p).2 hf
      · have hx : topic = x := by simpa [hts] using ht
        subst hx
        exact Or.inr fun p => ⟨full p, fun hf => before _ (hnew p hf (full p)).2.1 hts⟩
  | some p0 =>
    obtain ⟨hp0, hlow⟩ := freeRecall_some hf
    have hxts : x ∉ ts := fun hx => by
      rcases hall hm hn x hx hox with ⟨p, h1, h2⟩ | h
      · exact recallAt_none hr p h1 h2
      · exact (h p0).1 hp0
    have hreq : requestRecall t x o = makeRecall t p0 x o := by
      unfold requestRecall
      rw [if_pos ⟨by rw [hs]; exact hm, by rw [ha]; exact hn, hno, hr⟩, hf]
    have hself : (makeRecall t p0 x o).cont.recalls[p0] =
        { state := .waiting, topic := x, origin := o, expiries := 0, deadline := none } := upd_getElem_self _ _ _
    have hother : ∀ p : RecallPos, p ≠ p0 → (makeRecall t p0 x o).cont.recalls[p] = t.cont.recalls[p] := fun p hp =>
      upd_getElem_of_ne _ _ (Ne.symm hp)
    have hitems : (makeRecall t p0 x o).pubs.items =
        insertItem { kind := .recallItem x, cls := 1, attempts := 0, placed := t.pubs.placements } t.pubs.items := rfl
    have hsfree : (s.cont.recalls[p0]).state = .free := by
      by_contra hne
      exact hne (by rw [← hkeep p0 (Or.inl hne)]; exact hp0)
    have hpub : (makeRecall t p0 x o).pubs.table = t.pubs.table := rfl
    rw [hreq]
    refine ⟨fun h => ?_, htr, hpub.trans htab, ⟨hsub.1.trans (sublist_insertItem _ _), Nat.le_succ_of_le hsub.2⟩,
      fun p h1 => ?_, fun p h1 h2 => ?_, fun _ _ topic ht ho => ?_⟩
    · rcases h with h | h | h
      · exact absurd hm h
      · exact absurd hn h
      · exact absurd h (by simp)
    · have hp : p ≠ p0 := by
        rintro rfl
        rcases h1 with h1 | h1
        · exact h1 hsfree
        · rw [hself] at h1; cases h1
      rw [hother p hp] at h1 ⊢
      exact hkeep p h1
    · by_cases hp : p = p0
      · subst hp
        rw [hself]
        refine ⟨rfl, by simp, hox, fun q hq => ?_, fun q hq hqf => ?_, _, mem_insertItem.mpr (Or.inl rfl), rfl, rfl, rfl,
          hsub.2⟩
        · have := hkeep q (Or.inl hq)
          rw [← this] at hq ⊢
          exact recallAt_none hr q hq
        · rw [hother q (Fin.ne_of_lt hq)]
          exact ⟨hlow q hq, before _ (hnew q hqf (hlow q hq)).2.1 hxts⟩
      · rw [hother p hp] at h2 ⊢
        obtain ⟨a, b, c, d, e, it, hit, f⟩ := hnew p h1 h2
        refine ⟨a, List.mem_append_left _ b, c, d, fun q hq hqf => ?_, it, mem_insertItem.mpr (Or.inr hit), f⟩
        obtain ⟨hq1, hq2⟩ := e q hq hqf
        have hqp : q ≠ p0 := by rintro rfl; exact hq1 hp0
        rw [hother q hqp, inside _ b, inside _ (hnew q hqf hq1).2.1]
        exact ⟨hq1, hq2⟩
    · by_cases hts : topic ∈ ts
      · rcases hall hm hn topic hts ho with ⟨p, h1, h2⟩ | h
        · have hp : p ≠ p0 := by rintro rfl; exact h1 hp0
          exact Or.inl ⟨p, by rw [hother p hp]; exact ⟨h1, h2⟩⟩
        · exact absurd hp0 (h p0).1
      · have hx : topic = x := by simpa [hts] using ht
        subst hx
        exact Or.inl ⟨p0, by rw [hself]; exact ⟨nofun, rfl⟩⟩

/-- The automatic requests for `topics`, one at a time and in order (R110, R147). -/
theorem requestRecalls_recalled (s : State) (topics : List Topic) (o : RecallOrigin) :
    Recalled s (topics.foldl (fun s topic => requestRecall s topic o) s) topics o := by
  have both : ∀ topics : List Topic,
      (topics.foldl (fun s topic => requestRecall s topic o) s).session = s.session ∧
      (topics.foldl (fun s topic => requestRecall s topic o) s).access = s.access ∧
      Recalled s (topics.foldl (fun s topic => requestRecall s topic o) s) topics o := by
    intro topics
    induction topics using List.reverseRecOn with
    | nil => exact ⟨rfl, rfl, Recalled.of_same rfl rfl fun _ _ _ h => absurd h (List.not_mem_nil)⟩
    | append_singleton ts x ih =>
      rw [List.foldl_append]
      simp only [List.foldl_cons, List.foldl_nil]
      generalize ts.foldl (fun s topic => requestRecall s topic o) s = t at ih
      exact ⟨by rw [requestRecall_eq]; exact ih.1, by rw [requestRecall_eq]; exact ih.2.1,
        ih.2.2.request ih.1 (by rw [ih.2.1]) x⟩
  exact (both topics).2.2

/-- The requests of a slot that has gone stale are those for its topics (R110). -/
theorem staleRequests_eq_foldl (s : State) (k : SlotNo) :
    staleRequests s k = (staleTopics s [k]).foldl (fun s topic => requestRecall s topic .stale) s := by
  have table : ∀ (s : State) (topic : Topic), (requestRecall s topic .stale).accept = s.accept := fun s topic => by
    rw [requestRecall_eq]; rfl
  unfold staleRequests staleTopics
  simp only [List.flatMap_cons, List.flatMap_nil, List.append_nil]
  generalize List.finRange 32 = is
  suffices h : ∀ u : State, u.accept = s.accept →
      is.foldl (fun s i =>
        let e := s.accept.table[i]
        if e.state = .active ∧ e.recallOption = true ∧ e.target = .slot k then requestRecall s e.value .stale else s) u =
      ((is.filter fun i => decide ((s.accept.table[i]).state = .active ∧ (s.accept.table[i]).recallOption = true ∧
        (s.accept.table[i]).target = .slot k)).map fun i => (s.accept.table[i]).value).foldl
          (fun s topic => requestRecall s topic .stale) u from h s rfl
  induction is with
  | nil => exact fun _ _ => rfl
  | cons i is ih =>
    intro u hu
    simp only [List.foldl_cons, hu, List.filter_cons]
    split
    · rename_i hc
      rw [if_pos (by simpa using hc)]
      simp only [List.map_cons, List.foldl_cons]
      exact ih _ (by rw [table]; exact hu)
    · rename_i hc
      rw [if_neg (by simpa using hc)]
      exact ih _ hu

end Sys2Proof.Machine
end

