-- ==== Sys2Proof/Laws/Time.lean ====
section
/-! SUPPORT. What one microsecond changes and what it leaves, field by field. -/

namespace Sys2Proof.Machine

variable (s : State)

@[simp] theorem tick_pending : (tick s).pending = s.pending := rfl
@[simp] theorem tick_free : (tick s).free = s.free := rfl
@[simp] theorem tick_held : (tick s).held = s.held := rfl
@[simp] theorem tick_hold : (tick s).hold = s.hold := rfl
@[simp] theorem tick_line : (tick s).line = s.line.tick := rfl
@[simp] theorem tick_access : (tick s).access = { s.access with slotTime := halfTick s.access.slotTime } := rfl
@[simp] theorem tick_session : (tick s).session =
    { s.session with
      listenWindow := s.session.listenWindow.tick, presenceTimer := s.session.presenceTimer.tick } := rfl
@[simp] theorem tick_accept : (tick s).accept = s.accept := rfl
@[simp] theorem tick_epoch : (tick s).epoch = s.epoch := rfl
@[simp] theorem tick_port : (tick s).port = s.port := rfl
@[simp] theorem tick_items : (tick s).pubs.items = s.pubs.items := by unfold tick; with_reducible rfl
@[simp] theorem tick_placements : (tick s).pubs.placements = s.pubs.placements := by unfold tick; with_reducible rfl
@[simp] theorem tick_queues : (tick s).store.queues = s.store.queues := by unfold tick; with_reducible rfl
@[simp] theorem tick_cellsFree : (tick s).store.free = s.store.free := by unfold tick; with_reducible rfl
@[simp] theorem tick_tracker : (tick s).cont.tracker = s.cont.tracker := by unfold tick; with_reducible rfl

theorem tick_roster (n : Station) :
    (tick s).roster[n] = { s.roster[n] with deadline := s.roster[n].deadline.tick } := by
  simp only [tick, tabMap_getElem]

theorem tick_slot (k : SlotNo) :
    (tick s).store.slots[k] = { s.store.slots[k] with deadline := s.store.slots[k].deadline.tick } := by
  simp only [tick, tabMap_getElem]

theorem tick_pub (i : PubIndex) :
    (tick s).pubs.table[i] =
      { s.pubs.table[i] with
        periodicTimer := s.pubs.table[i].periodicTimer.tick, holdOff := s.pubs.table[i].holdOff.tick } := by
  simp only [tick, tabMap_getElem]

theorem tick_recall (p : RecallPos) :
    (tick s).cont.recalls[p] = { s.cont.recalls[p] with deadline := s.cont.recalls[p].deadline.tick } := by
  simp only [tick, tabMap_getElem]

/-- A timer that ticks runs exactly when it ran before. -/
@[simp] theorem Timer.tick_isSome (t : Timer) : t.tick.isSome = t.isSome := by cases t <;> rfl

/-- A microsecond in reset counts the hold and leaves everything else. -/
theorem holdTick_eq : holdTick s = { s with hold := { s.hold with left := s.hold.left.tick } } := rfl

@[simp] theorem holdTick_held : (holdTick s).held = s.held := by
  simp only [holdTick, State.held, Timer.tick_isSome]

/-- The part runs when nothing holds it. -/
theorem held_eq_false_iff : s.held = false ↔ s.hold = ResetHold.over := by
  rcases h : s.hold with ⟨power, pinLow, left⟩
  cases power <;> cases pinLow <;> cases left <;> simp [State.held, h, ResetHold.over]

/-- When a reset ends. -/
theorem canEnd_iff (h : ResetHold) :
    h.canEnd = true ↔ h.power = false ∧ h.pinLow = false ∧ h.left = some 0 := by
  simp [ResetHold.canEnd, and_assoc]

/-- RESET_END under the power-on hold is the end of that hold, and nothing else changes. -/
theorem execResetEnd_of_power (h : s.hold.power = true) :
    execResetEnd s = .next { s with hold := s.hold.afterPower } := by
  simp [execResetEnd, h]

/-- RESET_END with the 50 microseconds over ends the reset. -/
theorem execResetEnd_of_canEnd (h : s.hold.canEnd = true) :
    execResetEnd s = .next (hardReset ResetHold.over s) := by
  simp [execResetEnd, h, ((canEnd_iff _).mp h).1]

/-- RESET_END while RESET is low or the 50 microseconds run changes nothing. -/
theorem execResetEnd_of_counting (h : s.hold.power = false) (h' : s.hold.canEnd = false) :
    execResetEnd s = .next s := by
  simp [execResetEnd, h, h']

/-- The part is still held after the end of the power-on hold. -/
theorem afterPower_holds (h : ResetHold) : h.afterPower.pinLow = true ∨ h.afterPower.left = some 50 := by
  cases hp : h.pinLow <;> simp [ResetHold.afterPower, hp]

/-! ## The line -/

/-- The line is idle when nobody is reported active and the station drives nothing. -/
theorem isIdle_iff (l : LineInterface) : l.isIdle = true ↔ l.level = .idle ∧ l.send = .off := by
  simp [LineInterface.isIdle]

/-- While the line is active, or the station drives, no idle time is counted. -/
theorem LineInterface.tick_gap_of_not_isIdle {l : LineInterface} (h : l.isIdle = false) : l.tick.gap = l.gap := by
  simp [LineInterface.tick, h]

@[simp] theorem afterJam_send (l : LineInterface) : l.afterJam.send = .off := rfl
@[simp] theorem afterJam_level (l : LineInterface) : l.afterJam.level = l.level := rfl
@[simp] theorem afterJam_markCut (l : LineInterface) : l.afterJam.markCut = false := rfl
@[simp] theorem afterJam_receive (l : LineInterface) : l.afterJam.receive = l.receive := rfl

/-- Beyond the jam no gap is counted while the line is active. -/
theorem afterJam_gap_of_active {l : LineInterface} (h : l.level = .active) : l.afterJam.gap = none := by
  simp [LineInterface.afterJam, h]

/-- A conditional event is due when its condition holds. -/
@[simp] theorem mem_dueIf {b : Bool} {c d : Instr} : c ∈ dueIf b d ↔ b = true ∧ c = d := by
  unfold dueIf
  split <;> simp_all

/-- The command that is due is the one in the port. -/
@[simp] theorem mem_dueCommand {c : Instr} :
    c ∈ dueCommand s ↔ ∃ code args, s.port.state = .executing code args ∧ c = commandOf code args := by
  unfold dueCommand
  split <;> simp_all

/-- Idling puts one due event in the queue, or is a microsecond, outside reset or in it. -/
theorem idle_cases :
    (idle s = tick s) ∨ (idle s = holdTick s) ∨
    ∃ c ∈ due s, idle s = { s with pending := [c], free := s.free + 1 } := by
  unfold idle
  split
  · split
    · exact Or.inr (Or.inl rfl)
    · exact Or.inl rfl
  · rename_i c cs h
    refine Or.inr (Or.inr ⟨_, ?_, rfl⟩)
    rw [h, List.getD_eq_getElem _ _ (by simpa using Nat.mod_lt _ (Nat.succ_pos _))]
    exact List.getElem_mem _

end Sys2Proof.Machine
end

