-- ==== Sys2Proof/Tests/Slice0.lean ====
section
/-! SUPPORT. Tests of the model's own: what the check of well-formedness refuses, values that the spec writes out, one step on
small states, and a state that meets the hypotheses of each statement. -/

namespace Sys2Proof.Tests

open Sys2Proof.Machine

/-! ## Small states -/

/-- The state a meaning answers; State.reset where it answers none. -/
def after (o : Host.Outcome State Fault Refusal) : State :=
  match o with
  | .next s => s
  | _ => State.reset

/-- A record of station 5 at 1 Mbit/s, every queue with quota 16 and watermark 4. -/
def record : Record :=
  { station := 5, rate := .mbit1, unitTag := 0x1000, presenceInterval := 10, silenceMultiple := 3, listenMultiple := 2,
    recallWait := 30, recallHoldOff := 20, quotas := Vector.replicate 8 16, watermarks := Vector.replicate 8 4 }

/-- A member between frames, with nothing stored. -/
def member : State :=
  { State.reset with
    session := { record := some record, frozen := true, state := .member, listenWindow := none, presenceTimer := some 9 },
    line := { LineInterface.initial with rate := some .mbit1, receive := .betweenFrames },
    roster := upd State.reset.roster 5 fun _ => RosterEntry.self 0x1000 }

/-- The command in the port. -/
def executing (code : Byte) (args : List Byte) (s : State) : State :=
  s.setPort { s.port with state := .executing code args }

/-- The receive side at `r`. -/
def receiving (r : ReceiveCondition) (s : State) : State := s.setLine { s.line with receive := r }

/-- The send side at `c`. -/
def driving (c : SendCondition) (s : State) : State := s.setLine { s.line with send := c }

/-- An item of kind `k` in flight. -/
def flying (k : ItemKind) (covered : List Byte) (s : State) : State :=
  s.setAccess { s.access with inFlight := some { kind := k, latchedRepeat := false, covered := covered } }

/-- The frame `fr` of an item of kind `k` in flight, its echo just opened. -/
def echoing (k : ItemKind) (again : Bool) (fr : Frame) (s : State) : State :=
  receiving (justOpened true)
    (s.setAccess { s.access with inFlight := some { kind := k, latchedRepeat := again, covered := encodeFrame fr } })

/-- A foreign frame whose start mark has been accepted in reception, with or without its header-complete event. -/
def hearing (seen : Bool) (s : State) : State :=
  receiving (.inFrame { own := false, headerSeen := seen, heard := 0, rx := Receiver.start }) s

/-- A member held in reset as given. -/
def holding (power pinLow : Bool) (left : Timer) : State :=
  { member with hold := { power := power, pinLow := pinLow, left := left } }

/-- The transmit list with one item. -/
def listing (k : ItemKind) (c : FrameClass) (attempts : Nat) (s : State) : State :=
  s.setPubs { s.pubs with items := [{ kind := k, cls := c, attempts := attempts, placed := 0 }], placements := 1 }

/-- The station in state `x`. -/
def inState (x : StationState) (s : State) : State := s.setSession { s.session with state := x }

/-- An ACTIVE publication of topic 7 and class 2 with a value. -/
def published : PubEntry :=
  { PubEntry.initial with
    state := .active, topic := 7, cls := 2, mode := .both, period := 10, hasValue := true, payload := [1], nextSeq := 3 }

/-- The member with that publication at index 3. -/
def publisher : State := member.updPub 3 fun _ => published

/-- An ACTIVE subscription to every topic, into target `t`. -/
def subscribed (t : Target) : SubEntry := { SubEntry.initial with state := .active, target := t }

/-- The code in the port's response. -/
def answerCode (s : State) : Option StatusCode :=
  match s.port.state with
  | .responseWaiting r => some r.code
  | .ready | .executing _ _ => none

/-- The data in the port's response. -/
def answerData (s : State) : List Byte :=
  match s.port.state with
  | .responseWaiting r => r.data
  | .ready | .executing _ _ => []

/-- The UPDATE of the worked check value (1.6): class 3, source 5, topic 0x0102, sequence 0, no payload. -/
def workedFrame : Frame := { cls := 3, source := 5, body := .update false false 0x0102 0 [] }

/-- An UPDATE of station 9 for topic 7. -/
def peerUpdate : Frame := { cls := 2, source := 9, body := .update false false 7 4 [0xAA] }

/-- The line levels of a frame after its start mark, up to its end. -/
def levelsOf (f : Frame) : List LineLevel := wholeFrame (withCheck (encodeFrame f))

/-- A RECALL of station 9 for topic 7. -/
def peerRecall : Frame := { cls := 1, source := 9, body := .recallFor 7 }

/-- The levels of a frame are read as that frame. -/
def Reads (f : Frame) : Prop :=
  (Receiver.start.feed (levelsOf f)).ended = true ∧ judge (Receiver.start.feed (levelsOf f)) = .clean f

theorem reads_peerUpdate : Reads peerUpdate := by unfold Reads; decide +kernel
theorem reads_peerRecall : Reads peerRecall := by unfold Reads; decide +kernel

/-- A frame that is read ends the frame in reception CLEAN. -/
theorem foreignEnd_hearing (seen : Bool) {s : State} {f : Frame} (running : s.held = false) (h : Reads f) :
    ForeignEnd (hearing seen s) (levelsOf f) { own := false, headerSeen := seen, heard := 0, rx := Receiver.start } f :=
  ⟨running, rfl, rfl, h.1, h.2⟩

/-- The state in which a frame's echo is awaited. -/
theorem ownEcho_echoing {k : ItemKind} {fr : Frame} {s : State} (again : Bool) (running : s.held = false)
    (quiet : s.line.send.isJamming = false) (h : fr.sendable) (same : fr.body.kind = k.frameKind)
    (mine : fr.source = ownNumber s) :
    OwnEcho (echoing k again fr s) { kind := k, latchedRepeat := again, covered := encodeFrame fr } fr :=
  ⟨running, rfl, quiet, rfl, rfl, h, same, mine⟩

/-- Banks 0 and 1 in the states given, the latest-capture mark on bank `m`. -/
def banked (a b : BankState) (m : Fin 2) : State :=
  member.setEpoch { member.epoch with
    latest := some m,
    banks := upd (upd member.epoch.banks 0 fun k => { k with state := a }) 1 fun k => { k with state := b } }

/-! ## Ill-formed commands -/

theorem test_wf_activity_without_active_run : (Instr.lineActivity 0 5).wf = false := by decide
theorem test_wf_header_without_levels : (Instr.headerComplete []).wf = false := by decide
theorem test_wf_frame_end_without_levels : (Instr.frameEnd []).wf = false := by decide
theorem test_wf_command_transaction_without_bytes : (Instr.commandTransaction [] 0).wf = false := by decide
theorem test_wf_command_transaction_with_first_byte_zero : (Instr.commandTransaction [0, 0] 0).wf = false := by decide
theorem test_wf_command_transaction_with_eight_trailing_bits : (Instr.commandTransaction [4, 0] 8).wf = false := by decide
theorem test_wf_fetch_without_bytes : (Instr.fetchTransaction 0 0).wf = false := by decide
theorem test_wf_fetch_with_eight_trailing_bits : (Instr.fetchTransaction 3 8).wf = false := by decide
theorem test_wf_short_transaction_of_eight_clocks : (Instr.shortTransaction 8).wf = false := by decide
theorem test_wf_arguments_over_255 : (Instr.pop (List.replicate 256 0)).wf = false := by decide +kernel
theorem test_wf_unknown_command_with_a_known_code : (Instr.unknownCommand 4 []).wf = false := by decide
theorem test_wf_unknown_command_with_code_zero : (Instr.unknownCommand 0 []).wf = false := by decide
theorem test_wf_boundaries_are_well_formed :
    (Instr.lineActivity 1 0).wf = true ∧ (Instr.commandTransaction [4] 7).wf = true ∧ (Instr.fetchTransaction 1 7).wf = true ∧
      (Instr.shortTransaction 7).wf = true ∧ (Instr.unknownCommand 0x08 []).wf = true := by decide

/-! ## Values that the spec writes out -/

/-- The eight bytes of the worked check value (1.6, 12.1). -/
theorem test_worked_check_value :
    withCheck (encodeFrame workedFrame) = [0x13, 0x05, 0x01, 0x02, 0x00, 0x00, 0xE1, 0xF7] := by decide +kernel

/-- The SUBSCRIBE transaction of 12.5: 13 bytes, well formed, its command in the port. -/
theorem test_subscribe_transaction_example :
    (after (exec (.commandTransaction
      [0x20, 0x0B, 0x04, 0x03, 0x21, 0xFF, 0xFF, 0xFF, 0x01, 0x0C, 0x18, 0x03, 0xE8] 0) State.reset)).port.state =
      .executing 0x20 [0x04, 0x03, 0x21, 0xFF, 0xFF, 0xFF, 0x01, 0x0C, 0x18, 0x03, 0xE8] := by decide

/-- The positions of the example of 2.1: with base 7, stations 8, 12 and 7 hold positions 0, 4 and 31. -/
theorem test_positions_example : position 8 7 = 0 ∧ position 12 7 = 4 ∧ position 7 7 = 31 := by decide

/-- The late bookings of the example of 2.2 (R25): at 300 bit times slot 44, at 400 bit times slot 76. -/
theorem test_late_booking_example :
    let s := member.setSession { member.session with record := some { record with station := 12 } }
    lateSlot s 600 1 = some 44 ∧ lateSlot s 800 1 = some 76 := by decide

/-- Late bookings where slots begin: slot 44 is ahead until 352 bit times, and with slot 236 begun none is left (R25). -/
theorem test_late_booking_boundaries :
    let s := member.setSession { member.session with record := some { record with station := 12 } }
    lateSlot s 703 1 = some 44 ∧ lateSlot s 704 1 = some 76 ∧ lateSlot s 3775 1 = some 236 ∧ lateSlot s 3776 1 = none := by
  decide

/-- The six classifications of the example of 8.1. -/
theorem test_classification_example :
    let t := fun last => [{ source := 9, topic := 0x0210, last := last, heard := 0 : TrackEntry }]
    classify (t 41) 9 0x0210 42 false = .inOrder ∧ classify (t 42) 9 0x0210 42 false = .duplicate ∧
      classify (t 42) 9 0x0210 45 false = .gap 2 ∧ classify (t 45) 9 0x0210 44 false = .behind ∧
      classify (t 45) 9 0x0210 0 true = .rebase ∧ classify (t 0) 9 0x0210 200 false = .behind := by decide

/-- The status byte after reset: bit 7 and READY (12.4). -/
theorem test_status_byte_at_reset : statusByte State.reset = 0x81 := by decide

/-- STATUS of the example of 10.10, in LISTENING with all cells free (12.7). -/
theorem test_status_example :
    answerData (after (exec (.status []) (executing 4 [] (inState .listening member)))) =
      [0x03, 0x01, 0x00, 0x00, 0xFF, 0xFF, 0x80, 0x00, 0x00, 0x00, 0x00, 0x00, 0x00] := by decide

/-! ## The receiver -/

theorem test_receiver_reads_the_worked_frame :
    judge (Receiver.start.feed (levelsOf workedFrame)) = .clean workedFrame := by decide +kernel

theorem test_receiver_missing_stop_is_malformed :
    judge (Receiver.start.feed (List.replicate 10 .active ++ [.idle, .idle, .idle])) = .malformed := by decide

theorem test_receiver_jam_is_broken : judge (Receiver.start.feed (List.replicate 11 .active)) = .broken := by decide

theorem test_receiver_wrong_check_fails :
    judge (Receiver.start.feed (wholeFrame [0x13, 0x05, 0x01, 0x02, 0x00, 0x00, 0xE1, 0xF6])) = .checkFailed := by decide +kernel

/-! ## The output pins -/

/-- The attempt of the EPOCH at the head starts with six active bit times, of two half microseconds each, and two idle ones. -/
theorem test_ltx_of_a_start_mark :
    let s := after (exec .bookedSlotStart ((listing .epoch 0 0 member).setAccess
      { member.access with slotTime := some 0, booking := some 5 }))
    let later := fun n => tick^[n] s
    lde s = true ∧ ltx s = .active ∧ ltx (later 5) = .active ∧ ltx (later 6) = .idle ∧ ltx (later 7) = .idle ∧
      ltx (later 8) = .active := by decide +kernel

theorem test_sdo_is_driven_while_selected : sdoDriven member = false ∧
    sdoDriven (after (exec .transactionBegin member)) = true := by decide

/-! ## One command on a small state -/

theorem test_reset_pin_of_15_periods_is_ignored : exec (.resetPin 15) member = .next member := by rfl
theorem test_reset_pin_of_16_periods_resets : (after (exec (.resetPin 16) member)).held = true := by decide
theorem test_power_on_clears_the_record : (after (exec .powerOn member)).session.record = none := by decide
theorem test_start_mark_opens_a_frame :
    (after (exec (.lineActivity 6 2) member)).line.receive = justOpened false := by decide
theorem test_noise_opens_no_frame :
    (after (exec (.lineActivity 4 3) member)).line.receive = .betweenFrames := by decide
theorem test_gap_end_books_the_head :
    (after (exec .gapEnd (listing (.update 3) 2 0 publisher))).access.booking = some 69 := by decide
theorem test_collision_adds_eight :
    (after (exec (.collision [.idle]) (flying .epoch [] (driving (.sending 9) member)))).access.score = 8 := by decide
theorem test_collision_without_a_mismatch_is_none :
    exec (.collision [.active, .active]) (flying .epoch [] (driving (.sending 9) member)) =
      .next (flying .epoch [] (driving (.sending 9) member)) := by rfl
theorem test_collision_after_the_start_mark_opens_the_own_frame :
    (after (exec (.collision (List.replicate 6 .active ++ [.idle, .idle, .idle]))
      (flying .epoch [] (driving (.sending 9) member)))).line.receive = justOpened true := by decide
theorem test_echo_that_differs_is_a_collision :
    (after (exec (.frameEnd (List.replicate 11 .active))
      (receiving (justOpened true) (flying .epoch [0x30] (driving (.sending 9) member))))).access.score = 8 := by decide +kernel
theorem test_start_mark_in_a_jam_that_is_not_echoed_opens_a_foreign_frame :
    let s := after (exec (.collision [.idle]) (flying .epoch [] (driving (.sending 9) member)))
    let t := after (exec (.lineActivity 6 2) s)
    s.line.send.isJamming = true ∧ t.line.receive = justOpened false ∧ (after (exec .jamEnd t)).line.gap = none ∧
      (after (exec .jamEnd t)).line.receive = justOpened false := by decide
theorem test_start_mark_cut_by_a_mismatch_opens_no_frame :
    let own := flying .epoch [] (driving (.sending 9) member)
    let s := after (exec (.lineActivity 7 0) own)
    let t := after (exec (.lineActivity 7 2) s)
    s.line.send.isJamming = true ∧ t.line.receive = .betweenFrames ∧
      (after (exec (.lineActivity 7 2) (after (exec (.collision (List.replicate 7 .active)) own)))).line.receive
        = .betweenFrames ∧
      (after (exec (.lineActivity 6 2) t)).line.receive = justOpened false := by decide
theorem test_run_behind_six_active_and_one_idle_is_a_collision :
    let s := after (exec (.lineActivity 6 1) (flying .epoch [] (driving (.sending 9) member)))
    s.line.markHeard = 7 ∧ s.line.receive = .betweenFrames ∧ s.line.send.isJamming = false ∧
      (after (exec (.lineActivity 1 0) s)).line.send.isJamming = true ∧
      (after (exec (.lineActivity 6 2) s)).line.send.isJamming = true ∧
      (after (exec (.lineActivity 6 2) s)).line.receive = .betweenFrames := by decide
theorem test_start_mark_reported_as_it_grows_opens_the_own_frame :
    let s := after (exec (.lineActivity 6 0) (after (exec (.lineActivity 1 0) (flying .epoch [] (driving (.sending 9) member)))))
    s.line.send.isJamming = false ∧ (after (exec (.lineActivity 6 2) s)).line.receive = justOpened true := by decide
theorem test_no_gap_ends_while_the_line_is_active :
    exec .gapEnd (after (exec (.lineActivity 4 0) member)) = .next (after (exec (.lineActivity 4 0) member)) ∧
      (after (exec (.lineActivity 4 0) member)).line.gap = none := ⟨rfl, by decide⟩
theorem test_fifty_microseconds_after_the_rise_the_reset_ends :
    let s := after (exec (.resetPin 16) member)
    s.hold.left = some 50 ∧ exec .resetEnd s = .next s ∧ (holdTick^[50] s).hold.left = some 0 ∧
      (after (exec .resetEnd (holdTick^[50] s))).held = false := ⟨by decide, rfl, by decide, by decide⟩
theorem test_fifty_microseconds_after_the_power_on_hold_the_reset_ends :
    let s := after (exec .resetEnd (after (exec .powerOn member)))
    s.hold = { power := false, pinLow := false, left := some 50 } ∧
      (after (exec .resetEnd (holdTick^[50] s))).held = false := by decide
theorem test_power_on_with_reset_low_ends_after_its_rise :
    let s := after (exec .resetEnd (after (exec .powerOn (holding false true none))))
    s.hold = { power := false, pinLow := true, left := none } ∧ dueReset s = [] ∧
      dueReset (holdTick^[50] (after (exec (.resetPin 0) s))) = [.resetEnd] := by decide
theorem test_jam_end_keeps_a_line_active_beyond_the_jam :
    let jammed := flying .epoch [] (driving (.jamming 0) (listing .epoch 0 1 member))
    let s := after (exec .jamEnd (after (exec (.lineActivity 40 0) jammed)))
    lde s = false ∧ s.line.level = .active ∧ s.line.gap = none ∧ (tick^[99] s).line.gap = none ∧
      (after (exec .jamEnd jammed)).line.gap = some 0 := by decide
theorem test_jam_that_is_not_echoed_ends :
    let s := after (exec (.collision [.idle]) (receiving (justOpened true) (flying .epoch [0x30] (driving (.sending 9) member))))
    let t := after (exec .jamEnd s)
    let u := after (exec (.frameEnd (wholeFrame [0x30])) t)
    lde t = false ∧ t.access.inFlight = none ∧ t.line.receive = justOpened true ∧
      u.line.receive = .betweenFrames ∧ u.access.score = 9 ∧ u.line.gap.isSome = true := by decide +kernel
theorem test_own_frame_that_goes_on_behind_its_last_stop_bit_is_a_collision :
    let s := receiving (justOpened true) (flying .epoch [0x30] (driving (.sending 9) member))
    let t := after (exec (.frameEnd (wholeFrame (withCheck [0x30] ++ [1]))) s)
    t.line.receive = .betweenFrames ∧ t.line.send.isJamming = true ∧ t.access.score = 9 := by decide +kernel
theorem test_header_of_a_peer_update_reserves_a_cell :
    (after (exec (.headerComplete (charactersLevels [0x12, 9, 0, 7, 4, 1]))
      (receiving (justOpened false) (member.updSub 0 fun _ => subscribed (.queue 2))))).store.free = 127 := by decide +kernel
theorem test_peer_update_is_stored_in_its_queue :
    ((after (exec (.frameEnd (levelsOf peerUpdate))
      (receiving (justOpened false) (member.updSub 0 fun _ => subscribed (.queue 2))))).store.queues[(2 : QueueNo)]).records.map
        QueueRecord.payload = [[0xAA]] := by decide +kernel
theorem test_configure_out_of_range_is_refused :
    answerCode (after (exec (.configure (List.replicate 27 0))
      (executing 1 (List.replicate 27 0) State.reset))) = some .badArgument := by decide
theorem test_join_without_record_is_refused :
    answerCode (after (exec (.join []) (executing 2 [] State.reset))) = some .notConfigured := by decide
theorem test_read_slot_of_64_is_refused :
    answerCode (after (exec (.readSlot [64]) (executing 0x40 [64] member))) = some .badArgument := by decide
theorem test_declare_of_class_7_is_refused :
    answerCode (after (exec (.declare [1, 0, 8, 7, 1, 0, 10]) (executing 0x50 [1, 0, 8, 7, 1, 0, 10] member))) =
      some .badArgument := by decide
theorem test_recall_of_an_own_topic_is_refused :
    answerCode (after (exec (.recallCmd [0, 7]) (executing 0x60 [0, 7] publisher))) = some .ownTopic := by decide
theorem test_snapshot_open_with_nothing_filled_is_empty :
    answerCode (after (exec (.snapshotOpen []) (executing 0x71 [] member))) = some .empty := by decide
theorem test_pop_of_an_empty_queue_is_empty :
    answerCode (after (exec (.pop [2]) (executing 0x30 [2] member))) = some .empty := by decide
theorem test_command_with_a_spare_argument_is_refused :
    answerCode (after (exec (.status [1]) (executing 4 [1] member))) = some .badArgument := by decide
theorem test_no_word_spells_a_command : decodeTableWord 8 0x04 = none ∧ State.reset.withFetchWord 8 4 = State.reset :=
  ⟨rfl, rfl⟩

/-! ## A state for the hypotheses of each statement -/

theorem executes_executing {s : State} (code : Byte) (args : List Byte) (h : s.held = false) :
    Executes (executing code args s) code args := ⟨h, rfl⟩

/-- What settles a booking: no permission; a booking kept; slots counted with a head and no booking, in the middle of the
cycle and at its end; the four rates. -/
theorem witness_SettledBooking :
    let counting := fun e : Nat => (listing .epoch 0 0 member).setAccess { member.access with slotTime := some e }
    permission (inState .leaving member) = false ∧ permission (counting 0) = true ∧
    (∀ e ∈ [0, 4095], (counting e).access.booking = none ∧ (counting e).access.inFlight = none ∧
      (counting e).access.slotTime = some e ∧
      (counting e).pubs.items = [{ kind := .epoch, cls := 0, attempts := 0, placed := 0 }]) ∧
    (settleBooking (counting 0)).access.booking = some 5 ∧ (settleBooking (counting 4095)).access.booking = none ∧
    ∀ r ∈ [LineRate.kbit250, .kbit500, .mbit1, .mbit2],
      (member.setLine { member.line with rate := some r }).line.rate = some r := by decide

theorem witness_StepRunsTheFrontCommand : ∃ (c : Instr) (rest : List Instr) (s : State), s.pending = c :: rest :=
  ⟨.gapEnd, [.sendEnd], member.setPending [.gapEnd, .sendEnd], rfl⟩

/-- On an idle line, on an active one, while the station drives and while it jams; with several events due. -/
theorem witness_IdleStepIsOneMicrosecond :
    (∃ s : State, s.pending = [] ∧ s.held = false ∧ due s = [] ∧ s.line.level = .idle ∧ s.line.send = .off) ∧
    (∃ s : State, s.pending = [] ∧ s.held = false ∧ due s = [] ∧ s.line.level = .active) ∧
    (∃ s : State, s.pending = [] ∧ s.held = false ∧ due s = [] ∧ s.line.send = .sending 9) ∧
    (∃ s : State, s.pending = [] ∧ s.held = false ∧ due s = [] ∧ s.line.send = .jamming 9) ∧
    ∃ s : State, s.pending = [] ∧ s.held = false ∧ due s = [.sendEnd, .presenceTimerExpiry, .status []] :=
  ⟨⟨member, by decide⟩, ⟨member.setLine { member.line with level := .active }, by decide⟩,
   ⟨driving (.sending 9) member, by decide⟩, ⟨driving (.jamming 9) member, by decide⟩,
   ⟨executing 4 [] (driving (.sending 0) (member.setSession { member.session with presenceTimer := some 0 })), by decide⟩⟩

/-- At 1 Mbit/s a bit time is 2 half microseconds: each time of the line just not due, and due. -/
theorem test_line_times_are_due_at_their_bit_times :
    let counting := fun (b : Option (Fin 256)) (e : Nat) => member.setAccess { member.access with booking := b, slotTime := some e }
    let gap := fun g : Nat => member.setLine { member.line with gap := some g }
    let blocked := fun e : Nat => member.setLine { member.line with blocked := some ⟨e, false⟩ }
    (due (gap 23) = [] ∧ due (gap 24) = [.gapEnd]) ∧
    (due (counting (some 255) 4079) = [] ∧ due (counting (some 255) 4080) = [.bookedSlotStart]) ∧
    (due (counting none 4095) = [] ∧ due (counting none 4096) = [.slotCycleStart]) ∧
    (due (blocked 2048) = [] ∧ due (blocked 2049) = [.blockedLineEvent]) := by decide
theorem test_timers_are_due_at_zero :
    let at' := fun n : Nat => ((((member.updRoster 31 fun e => { e with state := .present, deadline := some n }).updSlot 63
      fun k => { k with state := .fresh, deadline := some n }).updPub 31 fun _ =>
      { published with periodicTimer := some n, holdOff := some n }).updRecall 7 fun e =>
      { e with state := .sent, deadline := some n })
    due (at' 1) = [] ∧ due (at' 0) = [.silenceDeadlineExpiry 31, .freshnessDeadlineExpiry 63, .periodicTimerExpiry 31,
      .holdOffExpiry 31, .recallDeadlineExpiry 7] := by decide

/-- The end of the count; the power-on hold with RESET high and low; RESET low, and the count with one microsecond left. -/
theorem witness_ResetEndGivesInitialValues :
    (∃ s : State, s.hold.power = false ∧ s.hold.pinLow = false ∧ s.hold.left = some 0) ∧
    (∃ s : State, s.hold.power = true ∧ s.hold.pinLow = false) ∧ (∃ s : State, s.hold.power = true ∧ s.hold.pinLow = true) ∧
    (∃ s : State, s.hold.power = false ∧ s.hold.pinLow = true) ∧
    (∃ (s : State) (n : Nat), s.hold.left = some (n + 1) ∧ n = 0 ∧ s.pending = [] ∧ s.hold.pinLow = false ∧
      s.hold.power = false) ∧
    ∃ s : State, s.pending = [] ∧ s.hold.pinLow = false ∧ s.hold.power = false ∧ s.hold.left = some 0 :=
  ⟨⟨holding false false (some 0), rfl, rfl, rfl⟩, ⟨holding true false none, rfl, rfl⟩, ⟨holding true true none, rfl, rfl⟩,
   ⟨holding false true none, rfl, rfl⟩,
   ⟨holding false false (some 1), 0, rfl, rfl, rfl, rfl, rfl⟩, ⟨holding false false (some 0), rfl, rfl, rfl, rfl⟩⟩

/-- A low of 16 periods, one of none that goes on with a low already taken, and one of 15. -/
theorem witness_ResetPinAndPowerOnHoldThePart :
    (∃ (s : State) (n : Nat), n = 16 ∧ s.hold.pinLow = false) ∧
    (∃ (s : State) (n : Nat), n = 0 ∧ s.hold.pinLow = true) ∧
    ∃ (s : State) (n : Nat), n < 16 ∧ n = 15 ∧ s.hold.pinLow = false :=
  ⟨⟨member, 16, by decide⟩, ⟨holding false true none, 0, by decide⟩, ⟨member, 15, by decide⟩⟩

theorem witness_SoftResetKeepsTheRecord : ∃ s : State, Executes s 0x05 [] := ⟨_, executes_executing 5 [] (s := member) rfl⟩

/-- A start mark of 5 and of 7 bit times, the echo of the own one, one in the jam, the rest of one that a mismatch has cut,
and activities just outside the range of a start mark; and in an attempt an activity of 7 bit times, a start mark with no
active bit time behind it, and one bit time behind six active and one idle. -/
theorem witness_LineActivityEndsTheSlotCount :
    let own := flying .epoch [] (driving (.sending 3) member)
    let blocked := receiving .seeking (member.setLine { member.line with blocked := some ⟨3, false⟩ })
    let jammed := flying .epoch [] (driving (.jamming 3) member)
    let heard := own.setLine { own.line with markHeard := 7 }
    let cut := jammed.setLine { jammed.line with markCut := true }
    let outside := fun s : State => s.held = false ∧ (s.line.receive = .seeking ∨ s.line.receive = .betweenFrames)
    (outside member ∧ echoMismatch member member.line.markHeard (activityLevels 5 2) = none ∧ member.line.receive = .betweenFrames ∧
      member.line.markCut = false ∧ member.access.inFlight = none ∧ member.line.blocked.isSome = false) ∧
    (outside member ∧ echoMismatch member member.line.markHeard (activityLevels 7 2) = none) ∧
    (outside own ∧ own.line.receive = .betweenFrames ∧ own.access.inFlight.isSome = true ∧
      own.line.send.isJamming = false ∧ own.line.markCut = false ∧ echoMismatch own own.line.markHeard (activityLevels 6 2) = none) ∧
    (outside jammed ∧ jammed.line.receive = .betweenFrames ∧ jammed.line.send.isJamming = true ∧
      jammed.line.markCut = false ∧ echoMismatch jammed jammed.line.markHeard (activityLevels 5 2) = none) ∧
    (outside cut ∧ cut.line.markCut = true ∧ echoMismatch cut cut.line.markHeard (activityLevels 7 2) = none) ∧
    (outside member ∧ echoMismatch member member.line.markHeard (activityLevels 8 1) = none ∧
      echoMismatch member member.line.markHeard (activityLevels 8 0) = none) ∧
    (outside blocked ∧ blocked.line.blocked.isSome = true ∧ echoMismatch blocked blocked.line.markHeard (activityLevels 4 5) = none) ∧
    (echoMismatch own own.line.markHeard (activityLevels 7 2) = some 6 ∧ own.access.inFlight = some ⟨.epoch, false, []⟩) ∧
    echoMismatch own own.line.markHeard (activityLevels 6 3) = some 8 ∧
    (outside heard ∧ heard.access.inFlight.isSome = true ∧
      echoMismatch heard heard.line.markHeard (activityLevels 1 0) = some 7) := by decide

theorem witness_GapEndAndCycleStartBookTheHead :
    (∃ s : State, s.held = false ∧ s.line.level = .active) ∧
    (∃ s : State, s.held = false ∧ s.access.booking = none ∧ s.line.receive = .betweenFrames ∧ s.line.send = .off ∧ s.line.level = .idle ∧
      s.access.inFlight = none ∧ s.access.slotTime = none ∧ s.pubs.items.length = 1 ∧ permission s = true) ∧
    (∃ s : State, s.held = false ∧ s.access.booking = none ∧ s.line.receive = .seeking ∧ s.line.send = .off ∧ s.line.level = .idle ∧
      s.access.inFlight = none ∧ s.access.slotTime = none ∧ s.pubs.items = []) ∧
    (∃ s : State, s.held = false ∧ s.access.booking = none ∧ s.access.slotTime.isSome = true ∧ s.pubs.items.length = 1 ∧
      permission s = true) ∧
    ∃ s : State, s.held = false ∧ s.access.booking = none ∧ s.access.slotTime.isSome = true ∧ s.pubs.items.length = 1 ∧
      permission s = false :=
  let counting := fun s : State => s.setAccess { s.access with slotTime := some 4095 }
  ⟨⟨member.setLine { member.line with level := .active }, by decide⟩, ⟨listing .epoch 0 0 member, by decide⟩, ⟨receiving .seeking member, by decide⟩,
   ⟨counting (listing .epoch 0 0 member), by decide⟩, ⟨counting (listing .epoch 0 0 (inState .leaving member)), by decide⟩⟩

/-- A booked slot with an UPDATE, with an EPOCH, and with an empty list. -/
theorem witness_BookedSlotStartsTheHead :
    let booked := fun s : State => s.setAccess { s.access with slotTime := some 0, booking := some 255 }
    let ready := fun s : State => s.held = false ∧ s.access.booking = some 255 ∧ s.access.slotTime = some 0 ∧
      s.line.receive = .betweenFrames ∧ s.line.send = .off ∧ s.access.inFlight = none
    (ready (booked (listing (.update 3) 2 0 publisher)) ∧
      (booked (listing (.update 3) 2 0 publisher)).pubs.items = [{ kind := .update 3, cls := 2, attempts := 0, placed := 0 }] ∧
      permission (booked (listing (.update 3) 2 0 publisher)) = true) ∧
    (ready (booked (listing .epoch 0 0 member)) ∧ permission (booked (listing .epoch 0 0 member)) = true) ∧
    (ready (booked member) ∧ (booked member).pubs.items = []) := by decide

/-- The latches with no epoch seen and with the last number, of a NEW and of a REPEAT. -/
theorem witness_BookedSlotStartsTheHead_latches :
    (∃ (s : State) (r : Record), s.session.record = some r ∧ s.epoch.lastSeen = none) ∧
    (∃ (s : State) (r : Record) (e : SeqNo), s.session.record = some r ∧ s.epoch.lastSeen = some e ∧ e = 0xFF) ∧
    ∀ k : UpdateKind, ∃ (s : State) (r : Record) (i : PubIndex), s.session.record = some r ∧ (s.pubs.table[i]).item = some k :=
  ⟨⟨member, record, rfl, rfl⟩,
   ⟨member.setEpoch { member.epoch with lastSeen := some 0xFF }, record, 0xFF, rfl, rfl, rfl⟩,
   fun k => ⟨member.updPub 31 fun _ => { published with item := some k }, record, 31, rfl, rfl⟩⟩

theorem witness_SendEndReleasesTheDriver : ∃ (s : State) (n : Nat), s.held = false ∧ s.line.send = .sending n :=
  ⟨driving (.sending 0) member, 0, by decide⟩

/-- Scores where the sum of 8 meets the limits of R36 and the ceiling of R34; mismatches in the first bit time, in the last
of the start mark, behind it, and none, with the line active since and idle; an own frame whose levels differ, not ended, ended at a jam and by idle; and one
that goes on behind its last stop bit. -/
theorem witness_CollisionJamsAndScores :
    (∀ score : Fin 256, ∃ (s : State) (n : Nat) (f : Flight), s.held = false ∧ s.line.send = .sending n ∧
      s.access.inFlight = some f ∧ s.access.score = score.val) ∧
    (let s := flying .epoch [] (driving (.sending 9) (listing .epoch 0 3 member))
     let mark := List.replicate 6 LineLevel.active
     echoMismatch s 0 [.idle] = some 0 ∧ echoMismatch s 0 (mark ++ [.idle, .active]) = some 7 ∧
       (∀ l ∈ (mark ++ [LineLevel.idle, .active]).drop 7, l = .active) ∧
       echoMismatch s 0 (mark ++ [.active, .idle]) = some 6 ∧
       (¬∀ l ∈ (mark ++ [LineLevel.active, .idle]).drop 6, l = .active) ∧
       echoMismatch s 0 (mark ++ [.idle, .idle, .idle]) = some 8 ∧ echoMismatch s 0 (mark ++ [.idle, .idle]) = none ∧
       s.line.receive = .betweenFrames) ∧
    let s := receiving (justOpened true) (flying .epoch [] (driving (.sending 9) (listing .epoch 0 3 member)))
    let r : Reception := { own := true, headerSeen := false, heard := 0, rx := Receiver.start }
    s.line.receive = .inFrame r ∧ r.own = true ∧
      (echoMismatch s (8 + r.heard) [.idle] = some 8 ∧ (r.rx.feed [.idle]).ended = false) ∧
      (echoMismatch s (8 + r.heard) (List.replicate 11 .active) = some 9 ∧
        (r.rx.feed (List.replicate 11 .active)).phase = .endedJam) ∧
      (echoMismatch s (8 + r.heard) [.idle, .idle, .idle] = some 8 ∧
        judge (r.rx.feed [.idle, .idle, .idle]) = .malformed) ∧
      (echoMismatch s (8 + r.heard) (wholeFrame (withCheck [] ++ [1])) = none ∧
        (r.rx.feed (wholeFrame (withCheck [] ++ [1]))).ended = true ∧
        (r.rx.feed (wholeFrame (withCheck [] ++ [1]))).chars ≠ withCheck []) :=
  ⟨fun score =>
    let s := flying .epoch [] (driving (.sending 9) (listing .epoch 0 3 member))
    ⟨s.setAccess { s.access with score := score.val }, 9, ⟨.epoch, false, []⟩, rfl, rfl, rfl, rfl⟩,
   by decide, by decide +kernel⟩

/-- A fifteenth collision of an UPDATE, of a WITHDRAWING one, of a CLAIM in CLAIMING, and of an EPOCH: with the line idle and active beyond the jam,
and with the own frame still in reception. -/
theorem witness_JamEndKeepsTheItemForARetry :
    let jammed := fun (k : ItemKind) (s : State) => flying k [] (driving (.jamming 0) (listing k 2 15 s))
    let ready := fun (k : ItemKind) (s : State) => s.held = false ∧ s.line.send = .jamming 0 ∧
      s.access.inFlight = some ⟨k, false, []⟩ ∧ s.session.state ≠ .leaving ∧ attemptsOf s k < 16
    (ready .claim (jammed .claim (inState .claiming member)) ∧
      (jammed .claim (inState .claiming member)).session.state = .claiming) ∧
    (ready (.update 3) (jammed (.update 3) publisher) ∧
      ((jammed (.update 3) publisher).pubs.table[(3 : PubIndex)]).state = .active) ∧
    (ready (.update 3) (jammed (.update 3) (publisher.updPub 3 fun e => { e with state := .withdrawing })) ∧
      ((jammed (.update 3) (publisher.updPub 3 fun e => { e with state := .withdrawing })).pubs.table[(3 : PubIndex)]).state
        = .withdrawing) ∧
    (ready .epoch (jammed .epoch member) ∧ (jammed .epoch member).line.level = .idle ∧
      (jammed .epoch member).line.receive = .betweenFrames) ∧
    (ready .epoch (jammed .epoch (member.setLine { member.line with level := .active })) ∧
      (jammed .epoch (member.setLine { member.line with level := .active })).line.level = .active) ∧
    (ready .epoch (jammed .epoch (receiving (justOpened true) member)) ∧
      (jammed .epoch (receiving (justOpened true) member)).line.receive = justOpened true) := by decide

/-- A sixteenth collision of a PRESENCE, an EPOCH, a RECALL, an UPDATE, and of a CLAIM in CLAIMING. -/
theorem witness_SixteenthCollisionAbandonsTheItem :
    let jammed := fun (k : ItemKind) (s : State) => flying k [] (driving (.jamming 0) (listing k 1 16 s))
    let ready := fun (k : ItemKind) (x : StationState) (s : State) => s.held = false ∧ s.line.send = .jamming 0 ∧
      s.access.inFlight = some ⟨k, false, []⟩ ∧ s.session.state = x ∧ 16 ≤ attemptsOf s k
    ready (.presence false) .member (jammed (.presence false) member) ∧ ready .epoch .member (jammed .epoch member) ∧
    (ready (.recallItem 9) .member (jammed (.recallItem 9) (member.updRecall 7 fun e => { e with state := .waiting, topic := 9 })) ∧
      recallAt (jammed (.recallItem 9) (member.updRecall 7 fun e => { e with state := .waiting, topic := 9 })) 9 = some 7) ∧
    (ready (.update 3) .member (jammed (.update 3) publisher) ∧
      ((jammed (.update 3) publisher).pubs.table[(3 : PubIndex)]).state = .active) ∧
    (ready .claim .claiming (jammed .claim (inState .claiming member)) ∧
      (∀ p : RecallPos, ((jammed .claim (inState .claiming member)).cont.recalls[p]).state = .free) ∧
      (jammed .claim (inState .claiming member)).epoch.request = .none) := by decide

theorem witness_BlockedLineScoresOncePerPeriod :
    (∃ (s : State) (m : BlockedMeasure), s.held = false ∧ s.line.blocked = some m ∧ m.reported = false) ∧
    ∃ (s : State) (m : BlockedMeasure), s.held = false ∧ s.line.blocked = some m ∧ m.reported = true :=
  ⟨⟨member.setLine { member.line with blocked := some ⟨2049, false⟩ }, ⟨2049, false⟩, by decide⟩,
   ⟨member.setLine { member.line with blocked := some ⟨2049, true⟩ }, ⟨2049, true⟩, by decide⟩⟩

/-- No entry that matches; and entry 31 alone matching, its queue with one cell of room and one cell in the pool. -/
theorem witness_HeaderCompleteReservesACell :
    let s0 := receiving (justOpened false) member
    let s1 := receiving (justOpened false) ((member.updSub 31 fun _ => subscribed (.queue 7)).setStore
      { member.store with
        free := 1
        queues := upd member.store.queues 7 fun x =>
          { x with records := List.replicate 15 ⟨0, 0, 0, false, false, false, false, 0, 0, 0, []⟩ } })
    let h : Header := { own := false, cls := 6, source := Fin.ofNat 32 ((0xFF : Byte).toNat % 32), first := true,
                        again := true, topic := (0xFF : Byte) ++ (0xFE : Byte), seq := 0, length := 32 }
    (s0.held = false ∧ s0.line.receive = justOpened false ∧ (32 : Byte).toNat ≤ 32 ∧
      ∀ i : SubIndex, (s0.accept.table[i]).accepts (quotaOf s0) h = false) ∧
    (s1.held = false ∧ s1.line.receive = justOpened false ∧
      (∀ j : SubIndex, j < 31 → (s1.accept.table[j]).accepts (quotaOf s1) h = false) ∧
      (s1.accept.table[(31 : SubIndex)]).accepts (quotaOf s1) h = true ∧
      (s1.accept.table[(31 : SubIndex)]).target = .queue 7 ∧ (s1.accept.table[(31 : SubIndex)]).keepOn = false ∧
      (s1.store.queues[(7 : QueueNo)]).cells < quotaOf s1 7 ∧ 0 < s1.store.free) := by decide +kernel

/-- The header of the own UPDATE in flight, and of an own frame after its collision. -/
theorem witness_HeaderCompleteReservesACell_own :
    (∃ s : State, s.held = false ∧ s.line.receive = justOpened true ∧ s.access.inFlight = none) ∧
    ∃ (s : State) (f : Flight) (rest : List Byte), s.held = false ∧ s.line.receive = justOpened true ∧
      s.line.send.isJamming = false ∧ s.access.inFlight = some f ∧
      f.covered = byteOf (16 + 2) :: 5 :: 0 :: 7 :: 3 :: 1 :: rest :=
  ⟨⟨receiving (justOpened true) member, rfl, rfl, rfl⟩,
   echoing (.update 3) false (latchedFrame publisher (.update 3)) publisher, _, [1], rfl, rfl, rfl, rfl, by decide⟩

/-- A visit that shares a target, reserves a slot, reserves a cell, and that misses a queue that is full to its quota, of an
empty pool, and marked before; with SPILL and without. -/
theorem witness_HeaderCompleteReservesACell_visits :
    let h : Header := { own := true, cls := 6, source := 31, first := true, again := true, topic := 0xFFFE, seq := 0,
                        length := 32 }
    let entry := fun (t : Target) (spill : Bool) => { subscribed t with acceptSelf := true, spill := spill }
    let s := fun (t : Target) (spill : Bool) (free : Nat) (p : Plan) =>
      setPlan ((member.updSub 31 fun _ => entry t spill).setStore { member.store with free := free }) p
    let full := fun s : State => s.updQueue 7 fun x =>
      { x with records := List.replicate 16 ⟨0, 0, 0, false, false, false, false, 0, 0, 0, []⟩ }
    let shared : Plan := { Plan.empty with targets := [{ target := .queue 7, reserver := 30, sharers := [] }] }
    let marked : Plan := { Plan.empty with spilled := [(6, .pool), (7, .quota)] }
    (∀ spill : Bool, ∀ p ∈ [Plan.empty, shared, marked],
      ((s (.queue 7) spill 1 p).accept.table[(31 : SubIndex)]).accepts (quotaOf (s (.queue 7) spill 1 p)) h = true) ∧
    ((s (.slot 63) false 0 Plan.empty).accept.table[(31 : SubIndex)]).accepts (quotaOf (s (.slot 63) false 0 Plan.empty)) h
      = true ∧
    ((member.accept.table[(31 : SubIndex)]).accepts (quotaOf member) h = false) ∧
    ((∃ r ∈ (s (.queue 7) false 1 shared).accept.plan.targets,
        r.target = ((s (.queue 7) false 1 shared).accept.table[(31 : SubIndex)]).target) ∧
      (∀ r ∈ (s (.queue 7) false 1 marked).accept.plan.targets,
        r.target ≠ ((s (.queue 7) false 1 marked).accept.table[(31 : SubIndex)]).target)) ∧
    ((((s (.queue 7) false 1 Plan.empty).store.queues[(7 : QueueNo)]).cells < quotaOf (s (.queue 7) false 1 Plan.empty) 7) ∧
      (s (.queue 7) false 1 Plan.empty).store.free = 1) ∧
    (quotaOf (full (s (.queue 7) true 1 Plan.empty)) 7 ≤
        ((full (s (.queue 7) true 1 Plan.empty)).store.queues[(7 : QueueNo)]).cells) ∧
    (((s (.queue 7) true 0 Plan.empty).store.queues[(7 : QueueNo)]).cells < quotaOf (s (.queue 7) true 0 Plan.empty) 7 ∧
      (s (.queue 7) true 0 Plan.empty).store.free = 0) ∧
    (marked.spilled = [(6, .pool)] ++ (7, .quota) :: [] ∧ ∀ m ∈ [((6 : QueueNo), OverflowReason.pool)], m.1 ≠ 7) := by
  decide +kernel

/-- A frame with the longest payload. -/
theorem witness_SentFrameIsReceivedClean : ∃ f : Frame, f.sendable :=
  ⟨{ cls := 6, source := 31, body := .update true true 0xFFFF 0xFF (List.replicate 32 0xFF) }, by decide,
   show (List.replicate 32 (0xFF : Byte)).length ≤ 32 by decide⟩

theorem peerUpdate_sendable : peerUpdate.sendable := ⟨by decide, show [(0xAA : Byte)].length ≤ 32 by decide⟩

/-- In NORMAL, and in QUIET where the score falls to 64 and where it stays above. -/
theorem witness_CleanForeignFrameMovesItsBase :
    (∃ (s : State) (f : Frame), s.held = false ∧ s.line.receive = justOpened false ∧ f.sendable ∧
      s.access.standing = .normal) ∧
    ∀ n ∈ [65, 66], ∃ (s : State) (f : Frame), s.held = false ∧ s.line.receive = justOpened false ∧ f.sendable ∧
      s.access.standing = .quiet ∧ s.access.score = n ∧ s.port.notices = [] :=
  ⟨⟨receiving (justOpened false) member, peerUpdate, rfl, rfl, peerUpdate_sendable, rfl⟩,
   fun n _ => ⟨receiving (justOpened false) (member.setAccess { member.access with standing := .quiet, score := n }),
    peerUpdate, rfl, rfl, peerUpdate_sendable, rfl, rfl, rfl⟩⟩

theorem test_quiet_ends_at_64_by_a_foreign_frame :
    let s := receiving (justOpened false) ((member.setAccess { member.access with standing := .quiet, score := 65 }).updRoster
      9 fun e => { e with state := .present })
    let t := after (exec (.frameEnd (levelsOf peerUpdate)) s)
    t.access.score = 64 ∧ t.access.standing = .normal ∧ t.port.notices = [⟨.standingChanged .normal, 0⟩] := by decide +kernel

/-- A frame after its header, with one cell reserved, that ends BROKEN, one that ends CHECK_FAILED, and one that ends
MALFORMED; one that ends so with no header seen before, whose header arrives within the levels, and one of another kind. -/
theorem witness_DamagedFrameReachesNoTarget :
    let r : Reception := { own := false, headerSeen := true, heard := 0, rx := Receiver.start }
    let s := reserveTarget (hearing true (member.updSub 0 fun _ => subscribed (.queue 2))) 0 (.queue 2)
    let broken := List.replicate 11 LineLevel.active
    let failed := wholeFrame [0x13, 0x05, 0x01, 0x02, 0x00, 0x00, 0xE1, 0xF6]
    let malformed := wholeFrame [0x13]
    (s.held = false ∧ s.line.receive = .inFrame r ∧ r.own = false ∧ r.headerSeen = true ∧ s.store.reservedCells = 1) ∧
    planFits s ∧
    ((r.rx.feed broken).ended = true ∧ judge (r.rx.feed broken) = .broken) ∧
    ((r.rx.feed failed).ended = true ∧ judge (r.rx.feed failed) = .checkFailed) ∧
    ((r.rx.feed malformed).ended = true ∧ judge (r.rx.feed malformed) = .malformed) ∧
    (hearing false member).line.receive = .inFrame { r with headerSeen := false } ∧ planFits (hearing false member) ∧
    (failed.length = 83 ∧ headerArrived (r.rx.feed (failed.take 60)) = true) ∧
    let other := wholeFrame [0x21, 0x09, 0x00, 0x07, 0x00, 0x00]
    (r.rx.feed other).ended = true ∧ judge (r.rx.feed other) = .checkFailed ∧
      ∀ n, n < other.length → headerArrived (r.rx.feed (other.take (n + 1))) = false :=
  ⟨by decide +kernel, ⟨by decide, by decide, fun _ => ⟨_, rfl, rfl⟩⟩, by decide +kernel, by decide +kernel,
   by decide +kernel, rfl, ⟨by decide, by decide, fun h => absurd rfl h⟩, by decide +kernel, by decide +kernel,
   by decide +kernel, by decide +kernel⟩

/-- The own frame of an attempt that has collided, during the jam and after it. -/
theorem witness_DamagedFrameReachesNoTarget_own :
    let r : Reception := { own := true, headerSeen := true, heard := 60, rx := Receiver.start }
    let s := receiving (.inFrame r) member
    let t := flying .epoch [] (driving (.jamming 9) s)
    let malformed := wholeFrame [0x13]
    (s.held = false ∧ s.line.receive = .inFrame r ∧ s.access.inFlight = none) ∧
    (t.held = false ∧ t.line.receive = .inFrame r ∧ t.line.send.isJamming = true) ∧
    (r.rx.feed malformed).ended = true ∧ judge (r.rx.feed malformed) = .malformed ∧
    (r.rx.feed (levelsOf peerUpdate)).ended = true ∧ judge (r.rx.feed (levelsOf peerUpdate)) = .clean peerUpdate := by
  decide +kernel

/-- An UPDATE and a PRESENCE of a peer that is ABSENT. -/
theorem witness_RosterHearsAPeer :
    (∃ (s : State) (f : Frame), s.held = false ∧ s.line.receive = justOpened false ∧ f.sendable ∧ f.source ≠ ownNumber s ∧
      (s.roster[f.source]).state ≠ .selfEntry ∧ (s.roster[f.source]).state = .absent ∧ s.port.notices = []) ∧
    ∃ (s : State) (f : Frame), s.held = false ∧ s.line.receive = justOpened false ∧ f.sendable ∧ f.source ≠ ownNumber s ∧
      (s.roster[f.source]).state ≠ .selfEntry ∧ f.body = .presence true false true 0xFFFFFFFE 0 :=
  ⟨⟨receiving (justOpened false) member, peerUpdate, rfl, rfl, peerUpdate_sendable, by decide⟩,
   ⟨receiving (justOpened false) member, { cls := 7, source := 31, body := .presence true false true 0xFFFFFFFE 0 },
    rfl, rfl, ⟨by decide, trivial⟩, by decide⟩⟩

/-- A PRESENCE and a CLAIM of a peer that is SILENT or PRESENT, with no tag, with the frame's and with another. -/
theorem witness_RosterHearsAPeer_tags :
    ∀ body ∈ [FrameBody.presence true false false 0x2000 9, .claim 0x2000], ∀ x ∈ [RosterState.silent, .present],
      ∀ old ∈ [none, some (0x2000 : UnitTag), some 0x1FFF], ∃ (s : State) (rec : Record) (f : Frame), s.held = false ∧
        s.line.receive = justOpened false ∧ f.sendable ∧ f.source ≠ ownNumber s ∧ s.session.record = some rec ∧
        (s.roster[f.source]).state = x ∧ (s.roster[f.source]).state ≠ .selfEntry ∧ (s.roster[f.source]).tag = old ∧
        f.body = body ∧ f.body.tag = some 0x2000 ∧ s.port.notices = [] := by
  have other : (31 : Station) ≠ ownNumber member := by decide
  intro body hb x hx old _
  have peer : x ≠ .selfEntry := by revert x; decide
  refine ⟨receiving (justOpened false) (member.updRoster 31 fun e => { e with state := x, tag := old }), record,
    { cls := 7, source := 31, body := body }, rfl, rfl, ?_, other, rfl, rfl, peer, rfl, rfl, ?_, rfl⟩
  · simp only [List.mem_cons, List.not_mem_nil, or_false] at hb
    rcases hb with rfl | rfl <;> exact ⟨by decide, trivial⟩
  · revert body; decide

theorem test_replaced_peer_loses_its_tracker_entries :
    let s := receiving (justOpened false) ((member.updRoster 31 fun e => { e with state := .silent, tag := some 1 }).setCont
      { member.cont with tracker := [⟨31, 7, 0, 0⟩, ⟨9, 7, 0, 0⟩] })
    let t := after (exec (.frameEnd (levelsOf { cls := 7, source := 31, body := .claim 2 })) s)
    t.cont.tracker = [⟨9, 7, 0, 0⟩] ∧
      t.port.notices = [⟨.peerReturned 31, 0⟩, ⟨.peerReplaced 31, 0⟩] := by decide +kernel

theorem witness_CleanClaimMakesAMember :
    ∃ (s : State) (r : Record) (f : Flight), s.held = false ∧ s.line.receive = justOpened true ∧
      s.line.send.isJamming = false ∧ s.session.state = .claiming ∧ s.session.record = some r ∧
      s.access.inFlight = some f ∧ f.kind = .claim ∧
      f.covered = encodeFrame { cls := 7, source := r.station, body := .claim r.unitTag } ∧
      ((s.pubs.table[(3 : PubIndex)]).state = .active ∧ (s.pubs.table[(3 : PubIndex)]).hasValue = true ∧
        (s.pubs.table[(3 : PubIndex)]).item = none) ∧ s.port.notices = [] :=
  let covered := encodeFrame { cls := 7, source := 5, body := .claim 0x1000 }
  ⟨receiving (justOpened true) (flying .claim covered (inState .claiming publisher)), record, ⟨.claim, false, covered⟩,
   by decide⟩

/-- The own frames of a publication that is sent once, sent again, latched as a REPEAT and WITHDRAWING, of a RECALL with its
entry, of an EPOCH, and of a PRESENCE. -/
theorem witness_CleanClaimMakesAMember_frames :
    (∀ e ∈ [published, { published with rePend := true, item := some .repeatValue },
        { published with state := .withdrawing }], ∀ again : Bool,
      ∃ (s : State) (f : Flight) (fr : Frame) (i : PubIndex), OwnEcho s f fr ∧ s.session.record = some record ∧
        s.session.state = .member ∧ f.kind = .update i ∧ f.latchedRepeat = again ∧ s.pubs.table[i] = e) ∧
    (∃ (s : State) (f : Flight) (fr : Frame) (p : RecallPos), OwnEcho s f fr ∧ s.session.record = some record ∧
      s.session.state = .member ∧ f.kind = .recallItem 9 ∧ s.cont.recallsFit ∧ (s.cont.recalls[p]).state = .waiting ∧
      (s.cont.recalls[p]).topic = 9) ∧
    (∃ (s : State) (f : Flight) (fr : Frame) (e : SeqNo), OwnEcho s f fr ∧ s.session.record = some record ∧
      s.session.state = .member ∧ fr.body = .epoch e) ∧
    ∀ d : Bool, ∃ (s : State) (f : Flight) (fr : Frame), OwnEcho s f fr ∧ s.session.record = some record ∧
      s.session.state = .member ∧ f.kind = .presence d :=
  ⟨fun e he again =>
    ⟨_, _, { cls := 2, source := 5, body := .update false false 7 3 [1] }, 31,
     ownEcho_echoing (k := .update 31) (s := member.updPub 31 fun _ => e) again rfl rfl ⟨by decide, by decide⟩ rfl rfl,
     rfl, rfl, rfl, rfl, upd_getElem_self _ _ _⟩,
   ⟨_, _, { cls := 1, source := 5, body := .recallFor 9 }, 7,
    ownEcho_echoing (k := .recallItem 9)
      (s := member.updRecall 7 fun e => { e with state := .waiting, topic := 9 }) false rfl rfl ⟨by decide, trivial⟩ rfl rfl,
    rfl, rfl, rfl, by unfold ContinuityUnit.recallsFit; decide, rfl, rfl⟩,
   ⟨_, _, { cls := 0, source := 5, body := .epoch 0 }, 0,
    ownEcho_echoing (k := .epoch) (s := member) false rfl rfl ⟨by decide, trivial⟩ rfl rfl, rfl, rfl, rfl⟩,
   fun d => ⟨_, _, { cls := 7, source := 5, body := .presence false d true 0x1000 0 },
    ownEcho_echoing (k := .presence d) (s := member) false rfl rfl ⟨by cases d <;> decide, trivial⟩ rfl rfl, rfl, rfl, rfl⟩⟩

/-- With a limit of 0 and with a limit above 0. -/
theorem witness_CleanUpdateIsDeliveredToItsSlot :
    let r : Reception := { own := false, headerSeen := true, heard := 0, rx := Receiver.start }
    let plan : Plan := { targets := [{ target := .slot 63, reserver := 31, sharers := [] }], spilled := [], overflow := none }
    let s := fun limit : Nat => setPlan (receiving (.inFrame r) ((member.updSub 31 fun _ =>
      { subscribed (.slot 63) with engaged := true }).updSlot 63 fun k => { k with limit := limit })) plan
    ∀ limit ∈ [0, 65535], (s limit).held = false ∧ (s limit).line.receive = .inFrame r ∧
      (r.rx.feed (levelsOf peerUpdate)).ended = true ∧
      judge (r.rx.feed (levelsOf peerUpdate)) =
        .clean { cls := 2, source := 9, body := .update false false 7 4 [0xAA] } ∧
      (s limit).accept.plan = plan ∧
      (∀ j : SubIndex, ((s limit).accept.table[j]).engaged = true → j = 31) ∧
      ((s limit).accept.table[(31 : SubIndex)]).track = false := by decide +kernel

/-- A queue reserved by an entry with TRACK and one without, a slot likewise, with an overflow mark on queue 3, a full or an
empty tracker, and the last number heard. -/
def settling (track marked : Bool) (tracker : List TrackEntry) : State :=
  let entry := fun t : Target => { subscribed t with track := track }
  let s0 := ((hearing true member).updSub 0 fun _ => entry (.queue 2)).updSub 1 fun _ => entry (.slot 5)
  let s1 := reserveTarget (reserveTarget s0 0 (.queue 2)) 1 (.slot 5)
  let s2 := setPlan s1 { s1.accept.plan with overflow := if marked then some (3, .pool) else none }
  s2.setCont { s2.cont with tracker := tracker }

theorem settling_planFits (track marked : Bool) (tracker : List TrackEntry) : planFits (settling track marked tracker) :=
  have targets : ∀ track marked : Bool,
      ((settling track marked []).accept.plan.targets.Pairwise fun a b => a.target ≠ b.target) ∧
      ∀ q : QueueNo, ((settling track marked []).store.queues[q]).reserved = true ↔
        ∃ r ∈ (settling track marked []).accept.plan.targets, r.target = .queue q := by decide
  ⟨(targets track marked).1, (targets track marked).2, fun _ => ⟨_, rfl, rfl⟩⟩

/-- The own echo of an UPDATE with its header complete, from just behind its start mark on, as an entry with SELF reserved its
slot. -/
theorem witness_CleanUpdateIsDeliveredToItsSlot_own :
    let fr : Frame := { cls := 2, source := 5, body := .update false false 7 4 [0xAA] }
    let r : Reception := { own := true, headerSeen := true, heard := 0, rx := Receiver.start }
    let plan : Plan := { targets := [{ target := .slot 63, reserver := 31, sharers := [] }], spilled := [], overflow := none }
    let s := setPlan (receiving (.inFrame r) (flying (.update 3) (encodeFrame fr) (driving (.sending 9) (publisher.updSub 31
      fun _ => { subscribed (.slot 63) with engaged := true, acceptSelf := true })))) plan
    OwnEnd s (levelsOf fr) r fr ∧ s.accept.plan = plan ∧
      (∀ j : SubIndex, (s.accept.table[j]).engaged = true → j = 31) ∧ (s.accept.table[(31 : SubIndex)]).track = false ∧
      (after (exec (.frameEnd (levelsOf fr)) s)).store.slots[(63 : SlotNo)].contents.selfMade = true := by
  refine ⟨⟨rfl, rfl, rfl, rfl, rfl, ⟨_, rfl, rfl⟩, ?_⟩, rfl, ?_⟩ <;> decide +kernel

/-- Every entry qualifies without TRACK; with it none qualifies at a duplicate, and every one does at a new number, after a
gap, and of a source not heard before; with room in the tracker and without. -/
theorem witness_CleanUpdateIsDeliveredToItsSlot_settled :
    (∀ (track marked : Bool) (tracker : List TrackEntry),
      ForeignEnd (settling track marked tracker) (levelsOf peerUpdate)
        { own := false, headerSeen := true, heard := 0, rx := Receiver.start } peerUpdate ∧
      planFits (settling track marked tracker)) ∧
    (∀ marked : Bool, ∀ i ∈ [(0 : SubIndex), 1],
      ((settling false marked []).accept.table[i]).track = false ∧ qualifies (settling false marked []) none i = true) ∧
    (∃ i : SubIndex, ((settling true false []).accept.table[i]).engaged = true ∧
      ((settling true false []).accept.table[i]).track = true) ∧
    (∀ last ∈ [(4 : SeqNo), 3, 1, 5],
      classify [⟨9, 7, last, 0⟩] 9 7 4 false =
        (if last = 4 then .duplicate else if last = 3 then .inOrder else if last = 1 then .gap 2 else .behind) ∧
      ∀ i ∈ [(0 : SubIndex), 1], qualifies (settling true false [⟨9, 7, last, 0⟩])
        (some (classify [⟨9, 7, last, 0⟩] 9 7 4 false)) i = decide (last = 3 ∨ last = 1)) ∧
    (∀ n ∈ [47, 48], classify (List.replicate n ⟨8, 7, 0, 0⟩) 9 7 4 false = .fresh) :=
  ⟨fun track marked tracker => ⟨⟨rfl, rfl, rfl, reads_peerUpdate.1, reads_peerUpdate.2⟩, settling_planFits _ _ _⟩,
   by decide, ⟨0, by decide⟩, by decide, by decide⟩

/-- A duplicate, and a new number over every pair of bank states that R161 tells apart. -/
theorem witness_ForeignEpochIsCaptured :
    let heard := fun (a b : BankState) (l : Option SeqNo) => receiving (justOpened false) (member.setEpoch
      { (banked a b 0).epoch with lastSeen := l })
    ((heard .filled .filled (some 0xFF)).held = false ∧
      (heard .filled .filled (some 0xFF)).line.receive = justOpened false ∧
      (heard .filled .filled (some 0xFF)).epoch.lastSeen = some 0xFF) ∧
    (∀ p ∈ [(BankState.empty, BankState.empty), (.filled, .empty), (.held, .filled), (.filled, .held), (.filled, .filled)],
      (heard p.1 p.2 none).held = false ∧ (heard p.1 p.2 none).line.receive = justOpened false ∧
      (heard p.1 p.2 none).epoch.lastSeen ≠ some 0 ∧ (heard p.1 p.2 none).epoch.latest = some 0 ∧
      ((heard p.1 p.2 none).epoch.banks[(0 : Fin 2)]).state = p.1 ∧
      ((heard p.1 p.2 none).epoch.banks[(1 : Fin 2)]).state = p.2) ∧
    (∀ q : Bool, ∃ (s : State) (x : Station) (l e : SeqNo), s.held = false ∧ s.line.receive = justOpened false ∧
      s.epoch.lastSeen = some l ∧ e ≠ l ∧ e ≠ l + 1 ∧ l = 0xFF ∧ e = 1 ∧ x ≠ ownNumber s ∧
      s.epoch.request = (if q then .waiting else .none)) :=
  ⟨by decide, by decide, fun q =>
    ⟨receiving (justOpened false) (member.setEpoch
       { member.epoch with lastSeen := some 0xFF, request := if q then .waiting else .none }), 9, 0xFF, 1, rfl, rfl, rfl,
     by decide, by decide, rfl, rfl, by cases q <;> decide, rfl⟩⟩

/-- The listen window; the presence timer with a PRESENCE in the list and without. -/
theorem witness_SessionTimersPlaceTheirItems :
    (∃ s : State, s.held = false ∧ s.session.state = .listening ∧ s.session.listenWindow.isSome = true) ∧
    (∃ (s : State) (r : Record), s.held = false ∧ s.session.record = some r ∧ s.session.presenceTimer.isSome = true ∧
      ∃ it ∈ s.pubs.items, it.isPresence = true) ∧
    ∃ (s : State) (r : Record), s.held = false ∧ s.session.record = some r ∧ s.session.presenceTimer.isSome = true ∧
      s.pubs.items.length = 1 ∧ ∀ it ∈ s.pubs.items, it.isPresence = false :=
  ⟨⟨member.setSession { member.session with state := .listening, listenWindow := some 0 }, by decide⟩,
   ⟨listing (.presence true) 0 0 member, record, by decide⟩, ⟨listing .epoch 0 0 member, record, by decide⟩⟩

/-- A CLAIM, a PRESENCE of a lower, the same and a higher tag, and a RECALL with the own number, in every station state and
with every PRESENCE in the list. -/
theorem witness_SessionTimersPlaceTheirItems_duplicates :
    ∀ f ∈ ([⟨7, 5, .claim 0x1000⟩, ⟨7, 5, .presence false false true 0xFFF 0⟩, ⟨0, 5, .presence true true false 0x1000 9⟩,
        ⟨7, 5, .presence false false true 0x1001 0⟩, ⟨1, 5, .recallFor 7⟩] : List Frame),
      ∀ (x : StationState) (items : List Item),
        ∃ (s : State) (rec : Record) (levels : List LineLevel) (r : Reception), ForeignEnd s levels r f ∧
          s.session.record = some rec ∧ f.source = rec.station ∧ rec.unitTag = 0x1000 ∧ s.session.state = x ∧
          s.pubs.items = items ∧ s.port.notices = [] := by
  have reads : ∀ f ∈ ([⟨7, 5, .claim 0x1000⟩, ⟨7, 5, .presence false false true 0xFFF 0⟩,
      ⟨0, 5, .presence true true false 0x1000 9⟩, ⟨7, 5, .presence false false true 0x1001 0⟩, ⟨1, 5, .recallFor 7⟩] :
      List Frame), ((Receiver.start.feed (levelsOf f)).ended = true ∧
        judge (Receiver.start.feed (levelsOf f)) = .clean f) ∧ f.source = 5 := by decide +kernel
  intro f hf x items
  exact ⟨_, record, _, _, foreignEnd_hearing false (s := inState x (member.setPubs { member.pubs with items := items })) rfl
    (reads f hf).1, rfl, (reads f hf).2, rfl, rfl, rfl, rfl⟩

/-- A FRESH slot of the peer and a FRESH slot of another. -/
theorem witness_SilentPeerMakesItsSlotsStale :
    let fresh := fun (x : Station) (k : Slot) => { k with state := .fresh, contents := { k.contents with source := x } }
    let s := ((member.updRoster 31 fun e => { e with state := .present, deadline := some 0 }).updSlot 0 (fresh 31)).updSlot 63
      (fresh 30)
    s.held = false ∧ (s.roster[(31 : Station)]).state = .present ∧ (s.roster[(31 : Station)]).deadline.isSome = true ∧
    (s.store.slots[(0 : SlotNo)]).state = .fresh ∧ (s.store.slots[(0 : SlotNo)]).contents.source = 31 ∧
    (s.store.slots[(63 : SlotNo)]).state = .fresh ∧ (s.store.slots[(63 : SlotNo)]).contents.source ≠ 31 ∧
    (s.store.slots[(1 : SlotNo)]).state ≠ .fresh ∧ s.port.notices = [] := by decide

/-- Two FRESH slots of the peer, each the target of entries with RECALL, in MEMBER and NORMAL and in CAUTION. -/
theorem witness_SilentPeerMakesItsSlotsStale_recall :
    ∀ x ∈ [Standing.normal, .caution], ∃ s : State, s.held = false ∧ (s.roster[(9 : Station)]).state = .present ∧
      (s.roster[(9 : Station)]).deadline.isSome = true ∧ s.session.state = .member ∧ s.access.standing = x ∧
      ((List.finRange 64).filter fun k =>
        decide ((s.store.slots[k]).state = .fresh ∧ (s.store.slots[k]).contents.source = 9)) = [0, 63] ∧
      staleTopics s [0, 63] = [21, 20, 21] ∧ ¬publishes s 20 ∧ s.port.notices = [] :=
  let fresh := fun k : Slot => { k with state := .fresh, contents := { k.contents with source := 9 } }
  let entry := fun (k : SlotNo) (v : Topic) (_ : SubEntry) =>
    { subscribed (.slot k) with recallOption := true, mask := 0xFFFF, value := v }
  fun x hx => ⟨((((((publisher.updRoster 9 fun e => { e with state := .present, deadline := some 0 }).updSlot 0 fresh).updSlot
      63 fresh).updSub 31 (entry 0 21)).updSub 1 (entry 63 20)).updSub 2 (entry 63 21)).setAccess
      { member.access with standing := x }, by
    revert x; unfold publishes; decide +kernel⟩

theorem witness_FreshnessExpiryMakesTheSlotStale :
    ∃ (s : State) (k : SlotNo), s.held = false ∧ (s.store.slots[k]).state = .fresh ∧
      (s.store.slots[k]).deadline.isSome = true ∧
      ∀ i : SubIndex, ¬((s.accept.table[i]).state = .active ∧ (s.accept.table[i]).recallOption = true ∧
        (s.accept.table[i]).target = .slot k) :=
  ⟨member.updSlot 63 fun k => { k with state := .fresh, deadline := some 0, limit := 1 }, 63, by decide⟩

/-- An entry with RECALL on the slot, in NORMAL and in CAUTION, with a FREE recall position. -/
theorem witness_FreshnessExpiryMakesTheSlotStale_recall :
    ∀ x ∈ [Standing.normal, .caution], ∃ (s : State) (k : SlotNo) (i : SubIndex), s.held = false ∧
      (s.store.slots[k]).state = .fresh ∧ (s.store.slots[k]).deadline.isSome = true ∧
      (s.accept.table[i]).state = .active ∧ (s.accept.table[i]).recallOption = true ∧
      (s.accept.table[i]).target = .slot k ∧ s.session.state = .member ∧ s.access.standing = x ∧
      (∀ j : PubIndex, (s.pubs.table[j]).state ≠ .free → (s.pubs.table[j]).topic ≠ (s.accept.table[i]).value) ∧
      (s.cont.recalls[(7 : RecallPos)]).state = .free ∧ s.access.booking = none ∧ s.access.slotTime = none :=
  fun x hx =>
    ⟨((publisher.updSlot 63 fun k => { k with state := .fresh, deadline := some 0, limit := 1 }).updSub 31 fun _ =>
        { subscribed (.slot 63) with recallOption := true }).setAccess { member.access with standing := x }, 63, 31, by
      revert x; decide⟩

/-- A timer of an entry with a value and no item, and of one without a value. -/
theorem witness_PublicationTimersExpire :
    (∃ (s : State) (i : PubIndex), s.held = false ∧ (s.pubs.table[i]).periodicTimer.isSome = true ∧
      (s.pubs.table[i]).state = .active ∧ (s.pubs.table[i]).hasValue = true ∧ (s.pubs.table[i]).inFlight = false ∧
      (s.pubs.table[i]).item = none) ∧
    (∀ kind : UpdateKind, ∀ flying : Bool, ∃ (s : State) (i : PubIndex), s.held = false ∧
      (s.pubs.table[i]).periodicTimer.isSome = true ∧ (s.pubs.table[i]).state = .active ∧
      (s.pubs.table[i]).hasValue = true ∧ (s.pubs.table[i]).item = some kind ∧ (s.pubs.table[i]).inFlight = flying) ∧
    ∃ (s : State) (i : PubIndex), s.held = false ∧ (s.pubs.table[i]).periodicTimer.isSome = true ∧
      (s.pubs.table[i]).hasValue = false :=
  ⟨⟨member.updPub 31 fun _ => { published with periodicTimer := some 0 }, 31, by decide⟩,
   fun kind flying =>
     ⟨member.updPub 31 fun _ => { published with periodicTimer := some 0, item := some kind, inFlight := flying }, 31,
      by cases kind <;> cases flying <;> decide⟩,
   ⟨member.updPub 0 fun _ => { published with periodicTimer := some 0, hasValue := false }, 0, by decide⟩⟩

/-- A station of number `n` with entry 31 as given. -/
def stationed (n : Station) (e : PubEntry) : State :=
  (member.setSession { member.session with record := some { record with station := n } }).updPub 31 fun _ => e

/-- A RECALL and an UPDATE of station 9 for an ACTIVE topic, heard by station 8 and by station 10, with an item and without,
with a value and without, in a running hold-off and in none. -/
theorem witness_PublicationTimersExpire_frames :
    ∀ n ∈ [(8 : Station), 10], ∀ e ∈ [published, { published with item := some .repeatValue },
        { published with hasValue := false }, { published with holdOff := some 0 }, { published with dirty := true }],
      ∀ f ∈ [peerRecall, peerUpdate],
        ∃ (s : State) (rec : Record) (levels : List LineLevel) (r : Reception) (i : PubIndex), ForeignEnd s levels r f ∧
          s.session.record = some rec ∧ f.source ≠ rec.station ∧ rec.station = n ∧ s.pubs.topicsDiffer ∧
          (∀ p : RecallPos, (s.cont.recalls[p]).state ≠ .free → (s.cont.recalls[p]).topic ≠ 7) ∧
          s.session.state = .member ∧ s.pubs.table[i] = e ∧ (s.pubs.table[i]).state = .active ∧
          (s.pubs.table[i]).topic = 7 ∧ s.port.notices = [] := by
  intro n hn e he f hf
  have reads : Reads f ∧ f.source = 9 := by
    simp only [List.mem_cons, List.not_mem_nil, or_false] at hf
    rcases hf with rfl | rfl
    · exact ⟨reads_peerRecall, rfl⟩
    · exact ⟨reads_peerUpdate, rfl⟩
  have other : (9 : Station) ≠ n := by clear he; revert n; decide
  have active : e.state = .active ∧ e.topic = 7 := by revert e; decide
  have entry : (hearing false (stationed n e)).pubs.table[(31 : PubIndex)] = e := upd_getElem_self _ _ _
  have fits : (stationed n e).pubs.topicsDiffer := by unfold PublicationUnit.topicsDiffer; revert n e; decide +kernel
  exact ⟨_, { record with station := n }, _, _, 31, foreignEnd_hearing false (s := stationed n e) rfl reads.1, rfl,
    by rw [reads.2]; exact other, rfl, fits,
    (by decide : ∀ p : RecallPos, (member.cont.recalls[p]).state ≠ .free → (member.cont.recalls[p]).topic ≠ 7), rfl, entry, by rw [entry]; exact active.1,
    by rw [entry]; exact active.2, rfl⟩

/-- In SENT and in SUPPRESSED, after no expiry and after one. -/
theorem witness_RecallWaitRunsOut :
    (∃ (s : State) (p : RecallPos), s.held = false ∧ (s.cont.recalls[p]).state = .sent ∧
      (s.cont.recalls[p]).deadline.isSome = true ∧ (s.cont.recalls[p]).expiries = 0) ∧
    ∃ (s : State) (p : RecallPos), s.held = false ∧ (s.cont.recalls[p]).state = .suppressed ∧
      (s.cont.recalls[p]).deadline.isSome = true ∧ (s.cont.recalls[p]).expiries ≠ 0 :=
  ⟨⟨member.updRecall 7 fun e => { e with state := .sent, deadline := some 0 }, 7, by decide⟩,
   ⟨member.updRecall 0 fun e => { e with state := .suppressed, deadline := some 0, expiries := 1 }, 0, by decide⟩⟩

/-- A RECALL and an UPDATE of a peer for the topic of an entry in each state, of each origin. -/
theorem witness_RecallWaitRunsOut_frames :
    ∀ x ∈ [RecallState.waiting, .sent, .suppressed], ∀ o ∈ [RecallOrigin.host, .fill, .stale],
      ∀ f ∈ [peerRecall, peerUpdate],
        ∃ (s : State) (rec : Record) (levels : List LineLevel) (r : Reception) (p : RecallPos), ForeignEnd s levels r f ∧
          s.session.record = some rec ∧ f.source ≠ rec.station ∧ s.cont.recallsFit ∧ (s.cont.recalls[p]).state = x ∧
          (s.cont.recalls[p]).origin = o ∧ (s.cont.recalls[p]).topic = 7 ∧
          (∀ j : PubIndex, (s.pubs.table[j]).state = .active → (s.pubs.table[j]).topic ≠ 7) ∧ s.port.notices = [] := by
  intro x hx o ho f hf
  have reads : Reads f ∧ f.source = 9 := by
    simp only [List.mem_cons, List.not_mem_nil, or_false] at hf
    rcases hf with rfl | rfl
    · exact ⟨reads_peerRecall, rfl⟩
    · exact ⟨reads_peerUpdate, rfl⟩
  have fits : (member.updRecall 7 fun e => { e with state := x, origin := o, topic := 7 }).cont.recallsFit := by
    unfold ContinuityUnit.recallsFit; revert x o; decide
  exact ⟨_, record, _, _, 7, foreignEnd_hearing false
      (s := member.updRecall 7 fun e => { e with state := x, origin := o, topic := 7 }) rfl reads.1,
    rfl, by rw [reads.2]; decide, fits, rfl, rfl, rfl,
    (by decide : ∀ j : PubIndex, (member.pubs.table[j]).state = .active → (member.pubs.table[j]).topic ≠ 7), rfl⟩

/-- With a response waiting and without one. -/
theorem witness_SelectFallCapturesTheStatus :
    (∃ s : State, s.held = false ∧ s.port.sel = .high ∧ ∀ r, s.port.state ≠ .responseWaiting r) ∧
    ∃ (s : State) (r : Response), s.held = false ∧ s.port.sel = .high ∧ s.port.state = .responseWaiting r :=
  ⟨⟨member, rfl, rfl, nofun⟩, ⟨answered member ⟨.ok, []⟩, ⟨.ok, []⟩, rfl, rfl, rfl⟩⟩

/-- SEL low with the status captured. -/
def selected (s : State) : State := s.setPort { s.port with sel := .low (captureStatus s) }

/-- A well-formed transaction in READY and in EXECUTING, one a byte short, one with a trailing bit, one of the code alone. -/
theorem witness_CommandTransactionIsJudged :
    (∃ (s : State) (c : Captured) (code : Byte) (len : Byte) (args : List Byte), s.port.sel = .low c ∧ code ≠ 0 ∧
      args.length = len.toNat ∧ s.port.state = .ready) ∧
    (∃ (s : State) (c : Captured) (code : Byte) (len : Byte) (args : List Byte), s.port.sel = .low c ∧ code ≠ 0 ∧
      args.length = len.toNat ∧ s.port.state ≠ .ready) ∧
    (∃ (s : State) (c : Captured) (code : Byte) (rest : List Byte), s.port.sel = .low c ∧ code ≠ 0 ∧
      ∀ len args, rest = len :: args → args.length ≠ len.toNat) ∧
    ∃ (s : State) (c : Captured) (code : Byte) (trailing : Nat), s.port.sel = .low c ∧ code ≠ 0 ∧ trailing ≠ 0 :=
  ⟨⟨selected member, _, 0x10, 1, [5], rfl, by decide⟩,
   ⟨selected (executing 4 [] member), _, 4, 0, [], rfl, by decide⟩,
   ⟨selected member, _, 0x10, [1], rfl, by decide, fun len args h => by cases h; decide⟩,
   ⟨selected member, _, 4, 7, rfl, by decide⟩⟩

/-- A fetch of the last byte of a response, of one byte less, and one with no response. -/
theorem witness_FetchShiftsOutTheResponse :
    (∃ (s : State) (c : Captured) (r : Response) (whole : Nat), s.port.sel = .low c ∧ 0 < whole ∧ c.answer = some r ∧
      whole = 3 + r.data.length) ∧
    (∃ (s : State) (c : Captured) (r : Response) (whole : Nat), s.port.sel = .low c ∧ 0 < whole ∧ c.answer = some r ∧
      whole + 1 = 3 + r.data.length) ∧
    ∃ (s : State) (c : Captured) (whole : Nat), s.port.sel = .low c ∧ 0 < whole ∧ c.answer = none :=
  let s := selected (answered member ⟨.ok, [7]⟩)
  ⟨⟨s, _, ⟨.ok, [7]⟩, 4, rfl, by decide, rfl, rfl⟩, ⟨s, _, ⟨.ok, [7]⟩, 3, rfl, by decide, rfl, rfl⟩,
   ⟨selected member, _, 1, rfl, by decide, rfl⟩⟩

theorem witness_RefusedCommandChangesNothing :
    ∃ (c : Instr) (s t : State) (r : Response), takesCommand c ∧ exec c s = .next t ∧ t.port.state = .responseWaiting r ∧
      r.code ≠ .ok ∧ r.code ≠ .pending :=
  ⟨.pop [7], executing 0x30 [7] State.reset, _, ⟨.badArgument, []⟩, Or.inl ⟨0x30, [7], rfl⟩, rfl, by decide⟩

/-- One argument byte too many and one too few. -/
theorem witness_RefusedCommandChangesNothing_lengths :
    (∃ (s : State) (args : List Byte), args.length ≠ 0 ∧ Executes s 0x04 args) ∧
    ∃ (s : State) (args : List Byte), args.length ≠ 27 ∧ args.length = 26 ∧ Executes s 0x01 args :=
  ⟨⟨_, [1], by decide, executes_executing 4 [1] (s := member) rfl⟩,
   ⟨_, List.replicate 26 0, by decide, rfl, executes_executing 1 (List.replicate 26 0) (s := State.reset) rfl⟩⟩

theorem witness_StatusReportsTheStation : ∃ s : State, Executes s 0x04 [] := ⟨_, executes_executing 4 [] (s := member) rfl⟩

/-- Index 31, index 32, and a station in OFFLINE. -/
theorem witness_ReadRosterReturnsTheEntry :
    (∃ (s : State) (b : Byte) (x : Station), Executes s 0x10 [b] ∧ b.toNat = x.val ∧ x = 31) ∧
    (∃ (s : State) (b : Byte), Executes s 0x10 [b] ∧ 31 < b.toNat ∧ b = 32) ∧
    ∃ (s : State) (b : Byte), Executes s 0x10 [b] ∧ rosterFits s ∧ s.session.state = .offline :=
  ⟨⟨_, 31, 31, executes_executing 0x10 [31] (s := member) rfl, rfl, rfl⟩,
   ⟨_, 32, executes_executing 0x10 [32] (s := member) rfl, by decide⟩,
   ⟨_, 0, executes_executing 0x10 [0] (s := State.reset) rfl,
    ⟨fun _ => by decide, fun h => absurd rfl h⟩, rfl⟩⟩

theorem witness_ReadSubscriptionReturnsTheEntry :
    (∃ (s : State) (b : Byte) (i : SubIndex), Executes s 0x22 [b] ∧ b.toNat = i.val ∧ i = 31) ∧
    ∃ (s : State) (b : Byte), Executes s 0x22 [b] ∧ 31 < b.toNat ∧ b = 32 :=
  ⟨⟨_, 31, 31, executes_executing 0x22 [31] (s := member) rfl, rfl, rfl⟩,
   ⟨_, 32, executes_executing 0x22 [32] (s := member) rfl, by decide⟩⟩

theorem witness_ReadPublicationReturnsTheEntry :
    (∃ (s : State) (b : Byte) (i : PubIndex), Executes s 0x53 [b] ∧ b.toNat = i.val ∧ i = 31) ∧
    ∃ (s : State) (b : Byte), Executes s 0x53 [b] ∧ 31 < b.toNat ∧ b = 32 :=
  ⟨⟨_, 31, 31, executes_executing 0x53 [31] (s := member) rfl, rfl, rfl⟩,
   ⟨_, 32, executes_executing 0x53 [32] (s := member) rfl, by decide⟩⟩

theorem witness_ListChangedSlotsNamesThemInOrder : ∃ s : State, Executes s 0x41 [] :=
  ⟨_, executes_executing 0x41 [] (s := member) rfl⟩

/-- Queue 7 with two records. -/
def queued : State :=
  member.updQueue 7 fun x => { x with records :=
    [⟨7, 9, 4, false, false, false, false, 0, 0, 0, [1]⟩, ⟨7, 9, 5, false, false, false, false, 0, 0, 0, [2]⟩] }

/-- Queue number 8; queue 7 with a quota of 0; queue 7 with records and without; with and without clear. -/
theorem witness_QueueCommandsActOnTheQueue :
    (∀ code ∈ [0x30, 0x31, (0x32 : Byte)],
      (∃ (s : State) (b : Byte), Executes s code [b] ∧ 7 < b.toNat ∧ b = 8) ∧
      (∃ (s : State) (b : Byte) (q : QueueNo), Executes s code [b] ∧ b.toNat = q.val ∧ quotaOf s q = 0) ∧
      (∃ (s : State) (b : Byte) (q : QueueNo) (r : QueueRecord) (rest : List QueueRecord), b.toNat = q.val ∧ q = 7 ∧
        Executes s code [b] ∧ quotaOf s q ≠ 0 ∧ (s.store.queues[q]).records = r :: rest) ∧
      ∃ (s : State) (b : Byte) (q : QueueNo), b.toNat = q.val ∧ q = 7 ∧ Executes s code [b] ∧ quotaOf s q ≠ 0 ∧
        (s.store.queues[q]).records = []) ∧
    ∀ clear b : Byte, ∃ s : State, Executes s 0x33 [b, clear] :=
  ⟨fun code _ =>
    ⟨⟨_, 8, executes_executing code [8] (s := member) rfl, by decide, rfl⟩,
     ⟨_, 7, 7, executes_executing code [7] (s := State.reset) rfl, rfl, rfl⟩,
     ⟨_, 7, 7, _, _, rfl, rfl, executes_executing code [7] (s := queued) rfl, show (16 : Nat) ≠ 0 by decide, rfl⟩,
     ⟨_, 7, 7, rfl, rfl, executes_executing code [7] (s := member) rfl, show (16 : Nat) ≠ 0 by decide, rfl⟩⟩,
   fun clear b => ⟨_, executes_executing 0x33 [b, clear] (s := queued) rfl⟩⟩

/-- Slot 63 with its changed flag set, slot number 64, and an EMPTY slot. -/
theorem witness_ReadSlotClearsTheChangedFlag :
    (∃ (s : State) (b : Byte) (k : SlotNo), Executes s 0x40 [b] ∧ b.toNat = k.val ∧ k = 63 ∧
      (s.store.slots[k]).changed = true) ∧
    (∃ (s : State) (b : Byte), Executes s 0x40 [b] ∧ 63 < b.toNat ∧ b = 64) ∧
    ∃ (s : State) (b : Byte) (k : SlotNo), Executes s 0x40 [b] ∧ b.toNat = k.val ∧ s.store.slotsFit ∧
      (s.store.slots[k]).state = .empty :=
  ⟨⟨_, 63, 63, executes_executing 0x40 [63] (s := member.updSlot 63 fun k => { k with changed := true }) rfl, rfl, rfl, rfl⟩,
   ⟨_, 64, executes_executing 0x40 [64] (s := member) rfl, by decide, rfl⟩,
   ⟨_, 0, 0, executes_executing 0x40 [0] (s := member) rfl, rfl,
    by unfold MessageStore.slotsFit Slot.fits; decide +kernel, rfl⟩⟩

/-- An open, a read, and a release with the mark on the bank released and the other bank FILLED, EMPTY, and with the mark on
the other bank. -/
theorem witness_SnapshotCommandsUseTheBanks :
    (∃ s : State, Executes s 0x71 [] ∧ (∀ x : Fin 2, (s.epoch.banks[x]).state ≠ .held) ∧ s.epoch.latest = some 1 ∧
      (s.epoch.banks[(1 : Fin 2)]).state = .filled) ∧
    (∃ (s : State) (n : Byte) (k : SlotNo), n.toNat = k.val ∧ k = 63 ∧ Executes s 0x72 [n] ∧
      (s.epoch.banks[(1 : Fin 2)]).state = .held ∧ ∀ x : Fin 2, x ≠ 1 → (s.epoch.banks[x]).state ≠ .held) ∧
    (∀ m : Fin 2, ∀ a ∈ [BankState.filled, .empty], ∃ s : State, Executes s 0x73 [] ∧ s.epoch.latest = some m ∧
      (s.epoch.banks[(1 : Fin 2)]).state = .held ∧ (s.epoch.banks[(0 : Fin 2)]).state = a ∧
      ∀ x : Fin 2, x ≠ 1 → (s.epoch.banks[x]).state ≠ .held) :=
  ⟨⟨_, executes_executing 0x71 [] (s := banked .empty .filled 1) rfl, by decide⟩,
   ⟨_, 63, 63, rfl, rfl, executes_executing 0x72 [63] (s := banked .filled .held 1) rfl, by decide⟩,
   fun m a ha => ⟨_, executes_executing 0x73 [] (s := banked a .held m) rfl, rfl, rfl, rfl, by
     revert a; decide +revert⟩⟩

/-- The commands with a bank HELD, with none HELD and none FILLED, and with slot numbers 63 and 64. -/
theorem witness_SnapshotCommandsUseTheBanks_refused :
    (∃ s : State, Executes s 0x71 [] ∧ ∃ x : Fin 2, (s.epoch.banks[x]).state = .held) ∧
    (∃ s : State, Executes s 0x71 [] ∧ ∀ x : Fin 2, (s.epoch.banks[x]).state = .empty) ∧
    (∀ n ∈ [(63 : Byte), 64], ∃ s : State, Executes s 0x72 [n] ∧ (63 < n.toNat ∨ n.toNat ≤ 63) ∧
      ∀ x : Fin 2, (s.epoch.banks[x]).state ≠ .held) ∧
    ∃ s : State, Executes s 0x73 [] ∧ ∀ x : Fin 2, (s.epoch.banks[x]).state ≠ .held :=
  ⟨⟨_, executes_executing 0x71 [] (s := banked .empty .held 1) rfl, by decide⟩,
   ⟨_, executes_executing 0x71 [] (s := member) rfl, by decide⟩,
   fun n _ => ⟨_, executes_executing 0x72 [n] (s := banked .filled .filled 1) rfl, by omega, by decide +kernel +revert⟩,
   ⟨_, executes_executing 0x73 [] (s := banked .filled .empty 0) rfl, by decide⟩⟩

/-- A FREE index with source ANY and with source 31, for a queue and for a slot that is EMPTY and that is FRESH, with limits 0
and 65535, with RECALL and without. -/
theorem witness_SubscriptionsAreMadeAndRemoved :
    (∀ src ∈ [0xFF, (31 : Byte)], ∃ (s : State) (b num opt : Byte) (i : SubIndex) (q : QueueNo) (r : Record),
      b.toNat = i.val ∧ i = 31 ∧ num.toNat = q.val ∧ q = 7 ∧ (src = 0xFF ∨ src.toNat < 32) ∧ opt.toNat < 32 ∧ opt = 15 ∧
      opt.getLsbD 4 = false ∧ Executes s 0x20 [b, 0, 1, 0xFF, 0, src, 0, num, opt, 0, 0] ∧
      (s.accept.table[i]).state = .free ∧ s.session.record = some r ∧ r.quotas[q] ≠ 0) ∧
    (∀ src ∈ [0xFF, (31 : Byte)], ∀ opt ∈ [(15 : Byte), 31], ∀ l ∈ [(0 : Byte), 0xFF], ∀ x ∈ [SlotState.empty, .fresh],
      ∃ (s : State) (b num : Byte) (i : SubIndex) (k : SlotNo), b.toNat = i.val ∧ i = 31 ∧ num.toNat = k.val ∧ k = 63 ∧
      (src = 0xFF ∨ src.toNat < 32) ∧ opt.toNat < 32 ∧ ((0xFF : Byte) ++ (0xFF : Byte)).toNat = 0xFFFF ∧
      Executes s 0x20 [b, 0, 1, 0xFF, 0xFF, src, 1, num, opt, l, l] ∧ (s.accept.table[i]).state = .free ∧
      (s.store.slots[k]).state = x ∧ s.session.state = .member ∧ s.access.standing = .normal ∧ ¬publishes s 1) ∧
    (∀ e : Bool, ∃ (s : State) (b : Byte) (i : SubIndex), b.toNat = i.val ∧ Executes s 0x21 [b] ∧
      (s.accept.table[i]).state = .active ∧ (s.accept.table[i]).engaged = e) :=
  ⟨fun src h => ⟨_, 31, 7, 15, 31, 7, record, rfl, rfl, rfl, rfl, by revert src; decide, by decide, rfl, by decide,
     executes_executing 0x20 [31, 0, 1, 0xFF, 0, src, 0, 7, 15, 0, 0] (s := member) rfl, rfl, rfl, by decide⟩,
   fun src h opt ho l _ x _ => ⟨_, 31, 63, 31, 63, rfl, rfl, rfl, rfl, by revert src; decide, by revert opt; decide, by decide,
     executes_executing 0x20 [31, 0, 1, 0xFF, 0xFF, src, 1, 63, opt, l, l]
       (s := publisher.updSlot 63 fun k => { k with state := x }) rfl, rfl, rfl, rfl, rfl,
     (by unfold publishes; decide : ¬publishes publisher 1)⟩,
   fun e => ⟨_, 31, 31, rfl, executes_executing 0x21 [31]
     (s := member.updSub 31 fun _ => { subscribed (.slot 0) with engaged := e }) rfl, rfl, rfl⟩⟩

/-- A SUBSCRIBE refused for each of its arguments: source 32 and 254, kind 2, queue 8, slot 64, a queue with quota 0 and without
a record, a queue with a limit, RECALL with a queue and with a mask, an option above 31; and for its index; an UNSUBSCRIBE
of a FREE and of a WITHDRAWING entry. -/
theorem witness_SubscriptionsAreMadeAndRemoved_refused :
    (∀ a ∈ ([[0, 0, 1, 0, 0, 32, 0, 7, 0, 0, 0], [0, 0, 1, 0, 0, 0xFE, 0, 7, 0, 0, 0], [0, 0, 1, 0, 0, 1, 2, 7, 0, 0, 0],
        [0, 0, 1, 0, 0, 1, 0, 8, 0, 0, 0], [0, 0, 1, 0, 0, 1, 1, 64, 0, 0, 0], [0, 0, 1, 0, 0, 1, 0, 7, 0, 0, 1],
        [0, 0, 1, 0xFF, 0xFF, 1, 0, 7, 16, 0, 0], [0, 0, 1, 0xFF, 0xFE, 1, 1, 63, 16, 0, 0],
        [0, 0, 1, 0, 0, 1, 0, 7, 32, 0, 0], [32, 0, 1, 0, 0, 1, 0, 7, 0, 0, 0]] : List (List Byte)),
      answerCode (after (exec (.subscribe a) (executing 0x20 a member))) = some .badArgument) ∧
    (let a : List Byte := [0, 0, 1, 0, 0, 1, 0, 7, 0, 0, 0]
     answerCode (after (exec (.subscribe a) (executing 0x20 a State.reset))) = some .badArgument ∧
     answerCode (after (exec (.subscribe a) (executing 0x20 a (member.setSession { member.session with
       record := some { record with quotas := Vector.replicate 8 0 } })))) = some .badArgument ∧
     (∀ x ∈ [SubState.active, .withdrawing],
       answerCode (after (exec (.subscribe a) (executing 0x20 a (member.updSub 0 fun e => { e with state := x })))) =
         some .inUse)) ∧
    (∀ x ∈ [SubState.free, .withdrawing], ∃ (s : State) (b : Byte) (i : SubIndex), Executes s 0x21 [b] ∧ b.toNat = i.val ∧
      (s.accept.table[i]).state = x) ∧
    ∃ (s : State) (b : Byte), Executes s 0x21 [b] ∧ 31 < b.toNat ∧ b = 32 :=
  ⟨by decide, by decide,
   fun x _ => ⟨_, 31, 31, executes_executing 0x21 [31] (s := member.updSub 31 fun e => { e with state := x }) rfl, rfl, rfl⟩,
   ⟨_, 32, executes_executing 0x21 [32] (s := member) rfl, by decide⟩⟩

/-- In MEMBER and in OFFLINE, at the last index, with the longest value and with none, in each mode. -/
theorem witness_DeclareMakesAPublication :
    ∀ x ∈ [StationState.member, .offline], ∀ value ∈ [none, some (List.replicate 32 (5 : Byte))],
      ∀ m ∈ [((1 : Byte), PubMode.periodic), (2, .onWrite), (3, .both)],
      ∃ (s : State) (b t1 t0 cls p1 p0 : Byte) (tail : List Byte) (i : PubIndex) (c : FrameClass),
        ((value = none ∧ tail = []) ∨ (∃ v, value = some v ∧ v.length ≤ 32 ∧ tail = byteOf v.length :: v)) ∧
        b.toNat = i.val ∧ i = 31 ∧ cls.toNat = c.val ∧ 1 ≤ c.val ∧ c.val ≤ 6 ∧ c.val = 6 ∧
        ((m.1 = 1 ∧ m.2 = .periodic) ∨ (m.1 = 2 ∧ m.2 = .onWrite) ∨ (m.1 = 3 ∧ m.2 = .both)) ∧ (p1 ++ p0).toNat ≠ 0 ∧
        (s.pubs.table[i]).state = .free ∧ ¬publishes s (t1 ++ t0) ∧
        Executes s 0x50 (b :: t1 :: t0 :: cls :: m.1 :: p1 :: p0 :: tail) ∧ s.session.state = x := by
  have other : ¬publishes publisher ((0 : Byte) ++ (8 : Byte)) := by unfold publishes; decide
  intro x _ value hv m hm
  have mode : (m.1 = 1 ∧ m.2 = .periodic) ∨ (m.1 = 2 ∧ m.2 = .onWrite) ∨ (m.1 = 3 ∧ m.2 = .both) := by revert m; decide
  simp only [List.mem_cons, List.not_mem_nil, or_false] at hv
  rcases hv with rfl | rfl
  · exact ⟨executing 0x50 [31, 0, 8, 6, m.1, 0, 1] (inState x publisher), 31, 0, 8, 6, 0, 1, [], 31, 6, Or.inl ⟨rfl, rfl⟩, rfl, rfl, by decide, by decide, by decide, by decide, mode,
      by decide, rfl, other, executes_executing 0x50 [31, 0, 8, 6, m.1, 0, 1] (s := inState x publisher) rfl, rfl⟩
  · exact ⟨executing 0x50 (31 :: 0 :: 8 :: 6 :: m.1 :: 0 :: 1 :: byteOf 32 :: List.replicate 32 5) (inState x publisher), 31, 0,
      8, 6, 0, 1, byteOf 32 :: List.replicate 32 5, 31, 6, Or.inr ⟨_, rfl, by decide, rfl⟩, rfl, rfl,
      by decide, by decide, by decide, by decide, mode, by decide, rfl, other,
      executes_executing 0x50 (31 :: 0 :: 8 :: 6 :: m.1 :: 0 :: 1 :: byteOf 32 :: List.replicate 32 5)
        (s := inState x publisher) rfl, rfl⟩

/-- A DECLARE and a WRITE VALUE of a wrong length: one byte short, a length byte that disagrees, and a value of 33 bytes. -/
theorem witness_values_of_a_wrong_length :
    let long : List Byte := 33 :: List.replicate 33 5
    (∀ args ∈ [[0, 0, 8, 6, 1, 0], [0, 0, 8, 6, 1, 0, 1, 2, 5], 0 :: 0 :: 8 :: 6 :: 1 :: 0 :: 1 :: long],
      Executes (executing 0x50 args publisher) 0x50 args ∧
      answerCode (after (exec (.declare args) (executing 0x50 args publisher))) = some .badArgument) ∧
    ∀ args ∈ [[3], [3, 2, 5], 3 :: long], Executes (executing 0x51 args publisher) 0x51 args ∧
      answerCode (after (exec (.writeValue args) (executing 0x51 args publisher))) = some .badArgument := by
  unfold Executes; decide

/-- A DECLARE refused for each of its arguments: index 32, class 0 and 7, mode 0 and 4, period 0; for an index in use, and for a
topic held by an entry in every state. -/
theorem witness_DeclareMakesAPublication_refused :
    (∀ a ∈ ([[32, 0, 8, 6, 1, 0, 1], [0, 0, 8, 0, 1, 0, 1], [0, 0, 8, 7, 1, 0, 1], [0, 0, 8, 6, 0, 0, 1],
        [0, 0, 8, 6, 4, 0, 1], [0, 0, 8, 6, 1, 0, 0, 1, 5]] : List (List Byte)),
      answerCode (after (exec (.declare a) (executing 0x50 a publisher))) = some .badArgument) ∧
    ∀ x ∈ [PubState.active, .withdrawing, .yielded], ∃ s : State,
      answerCode (after (exec (.declare [3, 0, 8, 6, 1, 0, 1]) (executing 0x50 [3, 0, 8, 6, 1, 0, 1] s))) = some .inUse ∧
      answerCode (after (exec (.declare [0, 0, 7, 6, 1, 0, 1]) (executing 0x50 [0, 0, 7, 6, 1, 0, 1] s))) =
        some .duplicateTopic ∧ publishes s 7 :=
  ⟨by decide, fun x hx => ⟨publisher.updPub 3 fun e => { e with state := x }, by revert x; unfold publishes; decide⟩⟩

/-- Writes: with a waiting item, without one in MEMBER and in LEAVING, in mode PERIODIC, and with a NEW and a REPEAT in flight;
to a FREE, a WITHDRAWING and a YIELDED entry; withdrawals in and out of flight, and of an entry in every other state. -/
theorem witness_PublicationsAreWrittenAndWithdrawn :
    (∀ e ∈ [{ published with item := some .repeatValue }, published, { published with mode := .periodic },
        { published with item := some .repeatValue, inFlight := true },
        { published with item := some .newValue, inFlight := true, mode := .periodic },
        { published with state := .free }, { published with state := .withdrawing }, { published with state := .yielded }],
      ∀ x ∈ [StationState.member, .leaving, .offline], ∃ (s : State) (b : Byte) (i : PubIndex) (value : List Byte),
        b.toNat = i.val ∧ s.pubs.table[i] = e ∧ value.length ≤ 32 ∧ Executes s 0x51 (b :: byteOf value.length :: value) ∧
        s.session.state = x) ∧
    (∀ x ∈ [PubState.free, .active, .withdrawing, .yielded], ∀ f : Bool, ∃ (s : State) (b : Byte) (i : PubIndex),
      b.toNat = i.val ∧ (s.pubs.table[i]).state = x ∧ Executes s 0x52 [b] ∧ (s.pubs.table[i]).inFlight = f) ∧
    ∃ (s : State) (b : Byte), 31 < b.toNat ∧ b = 32 ∧ Executes s 0x52 [b] :=
  ⟨fun e _ x _ => ⟨_, 31, 31, List.replicate 32 5, rfl,
     show (executing 0x51 (31 :: byteOf 32 :: List.replicate 32 5)
       (inState x (member.updPub 31 fun _ => e))).pubs.table[(31 : PubIndex)] = e from upd_getElem_self _ _ _,
     by decide, executes_executing 0x51 (31 :: byteOf 32 :: List.replicate 32 5)
       (s := inState x (member.updPub 31 fun _ => e)) rfl, rfl⟩,
   fun x _ f => ⟨_, 31, 31, rfl, rfl, executes_executing 0x52 [31]
     (s := member.updPub 31 fun _ => { published with state := x, inFlight := f }) rfl, rfl⟩,
   ⟨_, 32, by decide, rfl, executes_executing 0x52 [32] (s := member) rfl⟩⟩

theorem test_write_in_flight_marks_the_entry :
    let e := { published with item := some .repeatValue, inFlight := true }
    let s := executing 0x51 [3, 1, 9] (member.updPub 3 fun _ => e)
    (after (exec (.writeValue [3, 1, 9]) s)).pubs.table[(3 : PubIndex)] =
      { e with payload := [9], dirty := true, item := some .newValue, writtenSinceLatch := true, rePend := true } := by decide

/-- The last position FREE and every other one in use; a topic with an entry; an own topic; a full list; an EPOCH with no
request and with one; both outside MEMBER. -/
theorem witness_RecallAndEpochPlaceTheirItems :
    let listed := fun n : Nat => publisher.setCont { publisher.cont with
      recalls := Vector.ofFn fun p : Fin 8 => if p.val < n then
        { RecallEntry.initial with state := .sent, topic := BitVec.ofNat 16 (100 + p.val), origin := .fill }
        else RecallEntry.initial }
    let asked := fun (topic : Topic) (s : State) =>
      ∀ q : RecallPos, (s.cont.recalls[q]).state ≠ .free → (s.cont.recalls[q]).topic ≠ topic
    (∀ lo : Byte, ∀ n ∈ [7, 8], (listed n).session.state = .member ∧ Executes (executing 0x60 [0, lo] (listed n)) 0x60 [0, lo]) ∧
    (¬publishes (listed 7) 8 ∧ asked 8 (listed 7) ∧ ((listed 7).cont.recalls[(7 : RecallPos)]).state = .free ∧
      ∀ q : RecallPos, q < 7 → ((listed 7).cont.recalls[q]).state ≠ .free) ∧
    (¬publishes (listed 8) 107 ∧ (listed 8).cont.recallsFit ∧ ((listed 8).cont.recalls[(7 : RecallPos)]).state ≠ .free ∧
      ((listed 8).cont.recalls[(7 : RecallPos)]).topic = 107) ∧
    publishes (listed 8) 7 ∧
    (∀ q : RecallPos, ((listed 8).cont.recalls[q]).state ≠ .free ∧ ((listed 8).cont.recalls[q]).topic ≠ 8) ∧
    (∀ q : EpochRequest, Executes (executing 0x70 [] (member.setEpoch { member.epoch with request := q })) 0x70 []) ∧
    (inState .leaving member).session.state ≠ .member := by
  refine ⟨fun lo n _ => ⟨rfl, executes_executing 0x60 [0, lo] rfl⟩, ?_, ?_, ?_, by decide,
    fun _ => executes_executing 0x70 [] rfl, by decide⟩ <;>
  · unfold publishes
    try unfold ContinuityUnit.recallsFit
    decide

/-- A record in range, one with station number 32, and a station that is not OFFLINE. -/
theorem witness_ConfigureInstallsTheRecord_fields :
    ∃ (quotas marks : Vector Byte 8) (args : List Byte),
      args = 31 :: 3 :: 0 :: 0 :: 0 :: 1 :: 255 :: 15 :: 15 :: 255 :: 255 :: (quotas.toList ++ marks.toList) ∧
        (recordOf args).isSome = true :=
  ⟨#v[128, 0, 1, 1, 1, 1, 1, 1], #v[128, 0, 1, 1, 1, 1, 1, 1], _, rfl, by decide⟩

theorem witness_ConfigureInstallsTheRecord :
    let good : List Byte := [31, 3, 0, 0, 0, 1, 255, 15, 15, 255, 255, 128, 0, 1, 1, 1, 1, 1, 1, 128, 0, 1, 1, 1, 1, 1, 1]
    let bad : List Byte := [32, 3, 0, 0, 0, 1, 255, 15, 15, 255, 255, 128, 0, 1, 1, 1, 1, 1, 1, 128, 0, 1, 1, 1, 1, 1, 1]
    (good.length = 27 ∧ Executes (executing 1 good State.reset) 1 good ∧ State.reset.session.state = .offline ∧
      (recordOf good).isSome = true) ∧
    (bad.length = 27 ∧ Executes (executing 1 bad State.reset) 1 bad ∧ recordOf bad = none) ∧
    (Executes (executing 1 good member) 1 good ∧ member.session.state ≠ .offline) :=
  ⟨⟨rfl, executes_executing 1 _ rfl, rfl, by decide⟩, ⟨rfl, executes_executing 1 _ rfl, by decide⟩,
   ⟨executes_executing 1 _ rfl, by decide⟩⟩

theorem witness_JoinStartsListening :
    (∃ (s : State) (r : Record), Executes s 0x02 [] ∧ s.session.state = .offline ∧ s.session.record = some r) ∧
    (∃ s : State, Executes s 0x02 [] ∧ s.session.state = .offline ∧ s.session.record = none) ∧
    ∃ s : State, Executes s 0x02 [] ∧ s.session.state ≠ .offline :=
  ⟨⟨_, record, executes_executing 2 [] (s := inState .offline member) rfl, rfl, rfl⟩,
   ⟨_, executes_executing 2 [] (s := State.reset) rfl, rfl, rfl⟩,
   ⟨_, executes_executing 2 [] (s := member) rfl, by decide⟩⟩

/-- Every state that LEAVE tells apart, with an own frame in flight and without. -/
theorem witness_LeaveReturnsToOffline :
    (∀ x : StationState, ∃ s : State, Executes s 0x03 [] ∧ s.session.state = x ∧ s.access.inFlight = none ∧
      s.port.notices = [] ∧ (s.store.slots[(0 : SlotNo)]).state = .fresh) ∧
    ∀ x : StationState, ∃ s : State, Executes s 0x03 [] ∧ s.session.state = x ∧ s.access.inFlight.isSome = true :=
  ⟨fun x => ⟨_, executes_executing 3 [] (s := inState x (member.updSlot 0 fun k => { k with state := .fresh })) rfl,
     rfl, rfl, rfl, rfl⟩,
   fun x => ⟨_, executes_executing 3 [] (s := inState x (flying .epoch [] member)) rfl, rfl, rfl⟩⟩

/-- A leave with cells reserved, a WITHDRAWING entry, a score and requests; and in LEAVING the clean echo of an UPDATE, ACTIVE
and WITHDRAWING, and of an EPOCH, and the end of a jam at the fifteenth and the sixteenth collision. -/
theorem witness_LeaveReturnsToOffline_attempts :
    (∃ s : State, Executes s 0x03 [] ∧ s.session.state = .member ∧ s.access.inFlight = none ∧ planFits s ∧
      s.store.reservedCells = 1 ∧ s.access.standing ≠ .normal ∧ s.epoch.request ≠ .none ∧ s.port.notices = []) ∧
    (∀ x ∈ [PubState.active, .withdrawing], ∃ (s : State) (f : Flight) (fr : Frame) (i : PubIndex), OwnEcho s f fr ∧
      s.session.state = .leaving ∧ f.kind = .update i ∧ (s.pubs.table[i]).state = x ∧ f.latchedRepeat = false) ∧
    (∃ (s : State) (f : Flight) (fr : Frame) (e : SeqNo), OwnEcho s f fr ∧ s.session.state = .leaving ∧
      fr.body = .epoch e) ∧
    ∀ n ∈ [15, 16], ∀ k ∈ [ItemKind.recallItem 9, .claim, .epoch, .update 31], ∃ (s : State) (f : Flight),
      s.held = false ∧ s.line.send = .jamming 0 ∧ s.access.inFlight = some f ∧ s.session.state = .leaving ∧ f.kind = k ∧
      attemptsOf s f.kind = n :=
  ⟨⟨executing 3 [] ((settling false false []).setEpoch { member.epoch with request := .waiting } |>.setAccess
      { member.access with standing := .caution }), ⟨rfl, rfl⟩, rfl, rfl,
    ⟨by decide, by decide, fun _ => ⟨_, rfl, rfl⟩⟩, by decide, by decide, by decide, rfl⟩,
   fun x _ => ⟨_, _, { cls := 2, source := 5, body := .update false false 7 3 [1] }, 31,
     ownEcho_echoing (k := .update 31) (s := inState .leaving (member.updPub 31 fun _ => { published with state := x })) false
       rfl rfl ⟨by decide, by decide⟩ rfl rfl, rfl, rfl, rfl, rfl⟩,
   ⟨_, _, { cls := 0, source := 5, body := .epoch 0 }, 0,
    ownEcho_echoing (k := .epoch) (s := inState .leaving member) false rfl rfl ⟨by decide, trivial⟩ rfl rfl, rfl, rfl⟩,
   fun n hn k hk => ⟨flying k [] (driving (.jamming 0) (listing k 2 n (inState .leaving member))), ⟨k, false, []⟩, rfl, rfl,
     rfl, rfl, rfl, by revert n k; decide⟩⟩

/-- Masks 1023 and 1024; no notice, one, and more; a queue of 31 records and of 32; and a command that leaves the mask. -/
theorem witness_AttentionMaskAndNotices :
    (∃ (s : State) (hi lo : Byte), Executes s 0x06 [hi, lo] ∧ (hi ++ lo).toNat = 1023) ∧
    (∃ (s : State) (hi lo : Byte), Executes s 0x06 [hi, lo] ∧ (hi ++ lo).toNat = 1024) ∧
    (∃ s : State, Executes s 0x07 [] ∧ s.port.notices = []) ∧
    (∀ rest : List NoticeRecord, ∃ (s : State) (n : NoticeRecord), Executes s 0x07 [] ∧ s.port.notices = n :: rest) ∧
    (∀ k ∈ [31, 32], ∃ s : State, s.port.notices.length = k) ∧ (∃ s : State, Executes s 0x05 []) ∧
    ∃ s t : State, exec .gapEnd s = .next t ∧ s.port.mask = 1023 :=
  ⟨⟨_, 3, 0xFF, executes_executing 6 [3, 0xFF] (s := member) rfl, by decide⟩,
   ⟨_, 4, 0, executes_executing 6 [4, 0] (s := member) rfl, by decide⟩,
   ⟨_, executes_executing 7 [] (s := member) rfl, rfl⟩,
   fun rest => ⟨_, ⟨.joined, 0⟩, executes_executing 7 []
     (s := member.setPort { member.port with notices := ⟨.joined, 0⟩ :: rest }) rfl, rfl⟩,
   fun k hk => ⟨member.setPort { member.port with notices := List.replicate k ⟨.joined, 0⟩ }, List.length_replicate⟩,
   ⟨_, executes_executing 5 [] (s := member) rfl⟩,
   ⟨member.setPort { member.port with mask := 1023 }, _, rfl, rfl⟩⟩

/-- The 12 bytes of READ NOTICE for an EPOCH_DONE(SENT) (12.8). -/
theorem test_read_notice_bytes :
    answerData (after (exec (.readNotice []) (executing 7 [] (member.setPort
      { member.port with notices := [⟨.epochDone (.sent 0x2A 9), 0x01020304⟩] })))) =
      [0x60, 0, 1, 0, 0x2A, 0, 9, 1, 2, 3, 4, 0] := by decide

theorem witness_UnknownCommandIsAnsweredAsUnknown :
    ∃ (s : State) (code : Byte) (args : List Byte), code ≠ 0 ∧
      (∀ a : List Byte, commandOf code a = .unknownCommand code a) ∧ Executes s code args :=
  ⟨_, 0xFF, [1, 2], by decide, fun _ => rfl, executes_executing 0xFF [1, 2] (s := member) rfl⟩

theorem witness_ScoreAndStandingStayFit : ∃ s t : State, s.access.scoreFits ∧ step s = .next t :=
  ⟨publisher, _, by unfold AccessController.scoreFits; decide, rfl⟩

theorem witness_NoticeQueueStaysBounded : ∃ s t : State, s.port.noticesFit ∧ step s = .next t :=
  ⟨publisher, _, by unfold HostPort.noticesFit; decide, rfl⟩

theorem witness_TrackerStaysBoundedAndDistinct : ∃ s t : State, s.cont.trackerFits ∧ step s = .next t :=
  ⟨publisher.setCont { publisher.cont with tracker := [⟨9, 7, 0, 0⟩, ⟨9, 8, 0, 0⟩] }, _,
   by unfold ContinuityUnit.trackerFits; decide, rfl⟩

theorem witness_TrackerStaysBoundedAndDistinct_recalls : ∃ s t : State, s.cont.recallsFit ∧ step s = .next t :=
  ⟨member.updRecall 7 fun e => { e with state := .sent, topic := 9 }, _,
   by unfold ContinuityUnit.recallsFit; decide, rfl⟩

theorem witness_SnapshotBanksStayFit : ∃ s t : State, s.epoch.banksFit ∧ step s = .next t :=
  ⟨banked .held .filled 1, _, by unfold EpochUnit.banksFit; decide +kernel, rfl⟩

theorem witness_SlotsStayFit : ∃ s t : State, s.store.slotsFit ∧ step s = .next t :=
  ⟨publisher.updSlot 63 fun k => { k with state := .fresh, limit := 1, deadline := some 0 }, _,
   by unfold MessageStore.slotsFit Slot.fits; decide +kernel, rfl⟩

theorem witness_PublicationTopicsStayDistinct : ∃ s t : State, s.pubs.topicsDiffer ∧ step s = .next t :=
  ⟨publisher, _, by unfold PublicationUnit.topicsDiffer; decide +kernel, rfl⟩

theorem witness_TransmitListStaysOrdered : ∃ s t : State, s.pubs.ordered ∧ step s = .next t :=
  ⟨placeItem (listing (.update 3) 2 0 publisher) (.presence false) 7, _,
   by unfold PublicationUnit.ordered; decide, rfl⟩

/-- An UPDATE in the list whose entry is in flight, with a RECALL, an EPOCH and a PRESENCE behind it. -/
theorem witness_TransmitListStaysOrdered_items :
    ∃ s t : State, s.cont.recallsFit ∧ itemsFit s ∧ s.pubs.items.length = 4 ∧ step s = .next t :=
  let s0 := (member.updPub 31 fun _ => { published with item := some .newValue, inFlight := true, state := .withdrawing })
  let s1 := (s0.updRecall 7 fun e => { e with state := .waiting, topic := 9 }).setEpoch
    { member.epoch with request := .waiting }
  let s2 := placeItem (placeItem (placeItem (placeItem s1 (.update 31) 2) (.recallItem 9) 1) .epoch 0) (.presence true) 0
  let fr : Frame := { cls := 2, source := 5, body := .update false false 7 3 [1] }
  let s := flying (.update 31) (encodeFrame fr) s2
  ⟨s, idle s, by unfold ContinuityUnit.recallsFit; decide,
   ⟨by decide, by
      intro it hit i hi
      have : i = 31 := by revert it i; decide
      exact ⟨by subst this; decide, Or.inr ⟨by subst this; decide, ⟨_, rfl, by subst this; rfl⟩⟩⟩, by
      intro it hit topic ht
      have : topic = 9 := by
        have all : ∀ it ∈ s.pubs.items, it.kind = .recallItem 9 ∨ it.kind = .update 31 ∨ it.kind = .epoch ∨
          it.kind = .presence true := by decide
        rcases all it hit with h | h | h | h <;> rw [h] at ht <;> cases ht
        rfl
      exact ⟨7, rfl, by rw [this]; rfl⟩, by decide, by decide, by
      intro i hi
      have : i = 31 := by revert i; decide
      exact ⟨_, rfl, by subst this; rfl⟩, by
      intro f hf
      cases hf
      exact ⟨fr, rfl, rfl⟩, fun h => absurd h (by decide)⟩,
   by decide, rfl⟩

theorem witness_SessionAndRosterStayFit :
    ∃ s t : State, s.session.fits ∧ rosterFits s ∧ quietOffline s ∧ step s = .next t :=
  ⟨publisher, idle publisher, ⟨fun r h => by cases h; decide, by decide, by decide, by decide, by decide⟩,
   ⟨fun h => absurd h (by decide), fun _ => by decide⟩, fun h => absurd h (by decide), rfl⟩

/-- A frame in reception with its header complete and one cell reserved. -/
theorem witness_PoolCellsStayAccountedFor :
    ∃ s t : State, quietOffline s ∧ planFits s ∧ poolFits s ∧ s.accept.plan.targets ≠ [] ∧ step s = .next t :=
  let s := reserveTarget (hearing true (publisher.updSub 0 fun _ => subscribed (.queue 2))) 0 (.queue 2)
  ⟨s, idle s, fun h => absurd h (by decide), ⟨by decide, by decide, fun _ => ⟨_, rfl, rfl⟩⟩,
   ⟨by decide +kernel, by decide +kernel⟩, by decide, rfl⟩

end Sys2Proof.Tests
end

section
/-! READ ROSTER (3.7, 12.7): the command's two outcomes, and the roster of a station in OFFLINE. -/

namespace Sys2Proof.Machine

/-- READ ROSTER in the port is taken by the Roster (R60, R174). -/
theorem exec_readRoster_of_executes {s : State} {args : List Byte} (h : Executes s 0x10 args) :
    exec (.readRoster args) s = .next (answered (readRosterBody args s).1 (readRosterBody args s).2) :=
  congrArg Host.Outcome.next (takeCommand_executes (readRosterBody args) h)

/-- An index of the roster: the entry's bytes, and no change of state (R60). -/
theorem readRosterBody_of_index {b : Byte} {x : Station} (s : State) (h : b.toNat = x.val) :
    readRosterBody [b] s = (s, okData s.roster[x].bytes) := by
  simp [readRosterBody, indexOf_eq_some h]

/-- An index above the roster's last is refused (R60). -/
theorem readRosterBody_of_above {b : Byte} (s : State) (h : 31 < b.toNat) :
    readRosterBody [b] s = refuseWith s .badArgument := by
  simp [readRosterBody, indexOf_eq_none (Nat.succ_le_of_lt h)]

/-- In OFFLINE every entry is ABSENT (R56). -/
theorem rosterFits.state_of_offline {s : State} (fits : rosterFits s) (offline : s.session.state = .offline)
    (x : Station) : (s.roster[x]).state = .absent := by
  obtain ⟨allAbsent, -⟩ := fits
  have isAbsent : s.roster[x] = RosterEntry.absentEntry := allAbsent offline x
  rw [isAbsent]
  rfl

/-- Settles O35: an index up to 31 is answered with the entry's bytes, an index above it is refused, and `rosterFits` makes
every entry ABSENT in OFFLINE. -/
theorem readRosterReturnsTheEntry : Obligations.ReadRosterReturnsTheEntry := by
  refine ⟨rfl, fun s b executes => ⟨fun x index => ?entry, fun above => ?refused, rosterFits.state_of_offline⟩⟩
  case entry =>
    rw [exec_readRoster_of_executes executes, readRosterBody_of_index s index]
    rfl
  case refused =>
    rw [exec_readRoster_of_executes executes, readRosterBody_of_above s above]
    rfl

end Sys2Proof.Machine
end

section
/-! POP, PEEK, FLUSH and QUEUE STATUS (5.6, 12.7, 12.8): the queue record's layout, what each command does to the station, and
the one change that POP, FLUSH and a clearing QUEUE STATUS make. -/

namespace Sys2Proof.Machine

/-! ## The queue record -/

/-- A 16-bit field made of two bytes is sent as these two, the high one first (R189). -/
theorem bytes16_append (hi lo : Byte) : bytes16 (hi ++ lo).toNat = [hi, lo] := by
  have value : (hi ++ lo).toNat = hi.toNat * 256 + lo.toNat := by
    rw [BitVec.toNat_append, ← Nat.shiftLeft_add_eq_or_of_lt lo.isLt, Nat.shiftLeft_eq]
  have hiByte : byteOf ((hi ++ lo).toNat / 256) = hi := by
    apply BitVec.eq_of_toNat_eq
    simp only [byteOf, BitVec.toNat_ofNat, value]
    omega
  have loByte : byteOf (hi ++ lo).toNat = lo := by
    apply BitVec.eq_of_toNat_eq
    simp only [byteOf, BitVec.toNat_ofNat, value]
    omega
  rw [bytes16, hiByte, loByte]

/-- The layout of the queue record (12.8). -/
theorem queueRecord_bytes_of_topic {r : QueueRecord} {hi lo : Byte} (topic : r.topic = hi ++ lo) :
    r.bytes = hi :: lo :: byteOf r.source.val :: flagByte [r.first, r.again, r.selfMade, r.gap] :: byteOf r.missing :: r.seq
      :: byteOf r.entry.val :: (bytes32 r.stamp.toNat ++ byteOf r.payload.length :: r.payload) := by
  rw [QueueRecord.bytes, topic, bytes16_append]
  rfl

/-! ## The command in the port -/

/-- POP in the port is taken by the Message Store (R95, R174). -/
theorem exec_pop_of_executes {s : State} {args : List Byte} (h : Executes s 0x30 args) :
    exec (.pop args) s = .next (answered (popBody args s).1 (popBody args s).2) :=
  congrArg Host.Outcome.next (takeCommand_executes (popBody args) h)

/-- PEEK in the port is taken by the Message Store (R96, R174). -/
theorem exec_peek_of_executes {s : State} {args : List Byte} (h : Executes s 0x31 args) :
    exec (.peek args) s = .next (answered (peekBody args s).1 (peekBody args s).2) :=
  congrArg Host.Outcome.next (takeCommand_executes (peekBody args) h)

/-- FLUSH in the port is taken by the Message Store (R97, R174). -/
theorem exec_flush_of_executes {s : State} {args : List Byte} (h : Executes s 0x32 args) :
    exec (.flush args) s = .next (answered (flushBody args s).1 (flushBody args s).2) :=
  congrArg Host.Outcome.next (takeCommand_executes (flushBody args) h)

/-- QUEUE STATUS in the port is taken by the Message Store (R98, R174). -/
theorem exec_queueStatus_of_executes {s : State} {args : List Byte} (h : Executes s 0x33 args) :
    exec (.queueStatus args) s = .next (answered (queueStatusBody args s).1 (queueStatusBody args s).2) :=
  congrArg Host.Outcome.next (takeCommand_executes (queueStatusBody args) h)

/-! ## The queue a command names -/

/-- A queue number above 7, and a queue of quota 0, name no queue (R95 to R97). -/
theorem enabledQueue_eq_none {s : State} {b : Byte}
    (h : 7 < b.toNat ∨ ∃ q : QueueNo, b.toNat = q.val ∧ quotaOf s q = 0) : enabledQueue s b = none := by
  obtain above | ⟨q, number, noQuota⟩ := h
  · simp [enabledQueue, indexOf_eq_none (Nat.succ_le_of_lt above)]
  · simp [enabledQueue, indexOf_eq_some number, noQuota]

/-- The number of a queue with a quota names it (R95 to R97). -/
theorem enabledQueue_eq_some {s : State} {b : Byte} {q : QueueNo} (number : b.toNat = q.val) (quota : quotaOf s q ≠ 0) :
    enabledQueue s b = some q := by
  simp [enabledQueue, indexOf_eq_some number, quota]

/-! ## The change of one queue -/

/-- Queue `q` changed by `f`, and `n` of its cells back in the pool. -/
def changeQueue (s : State) (q : QueueNo) (n : Nat) (f : ReceiveQueue → ReceiveQueue) : State :=
  { s with store := { s.store with free := s.store.free + n, queues := upd s.store.queues q f } }

/-- A command that changes one queue leaves the other queues and every other block as they were. -/
theorem exec_changeQueue {s : State} {c : Instr} {q : QueueNo} {n : Nat} {f : ReceiveQueue → ReceiveQueue} {r : Response}
    (h : exec c s = .next (answered (changeQueue s q n f) r)) :
    ∃ t, exec c s = .next t ∧
      t = answered { s with store := { s.store with free := s.store.free + n, queues := t.store.queues } } r ∧
      t.store.queues[q] = f s.store.queues[q] ∧ ∀ q' : QueueNo, q' ≠ q → t.store.queues[q'] = s.store.queues[q'] :=
  ⟨_, h, rfl, upd_getElem_self _ _ _, fun _ ne => upd_getElem_of_ne _ _ ne.symm⟩

/-! ## POP (R95) -/

theorem popBody_of_disabled {s : State} {b : Byte} (h : enabledQueue s b = none) :
    popBody [b] s = refuseWith s .badArgument := by
  simp [popBody, h]

theorem popBody_of_nil {s : State} {b : Byte} {q : QueueNo} (h : enabledQueue s b = some q)
    (records : (s.store.queues[q]).records = []) : popBody [b] s = refuseWith s .empty := by
  simp only [popBody, h]
  rw [records]

theorem popBody_of_cons {s : State} {b : Byte} {q : QueueNo} {r : QueueRecord} {rest : List QueueRecord}
    (h : enabledQueue s b = some q) (records : (s.store.queues[q]).records = r :: rest) :
    popBody [b] s = (changeQueue s q 1 fun x => { x with records := rest }, okData r.bytes) := by
  simp only [popBody, h]
  rw [records]
  rfl

/-! ## PEEK (R96) -/

theorem peekBody_of_disabled {s : State} {b : Byte} (h : enabledQueue s b = none) :
    peekBody [b] s = refuseWith s .badArgument := by
  simp [peekBody, h]

theorem peekBody_of_nil {s : State} {b : Byte} {q : QueueNo} (h : enabledQueue s b = some q)
    (records : (s.store.queues[q]).records = []) : peekBody [b] s = refuseWith s .empty := by
  simp only [peekBody, h]
  rw [records]

theorem peekBody_of_cons {s : State} {b : Byte} {q : QueueNo} {r : QueueRecord} {rest : List QueueRecord}
    (h : enabledQueue s b = some q) (records : (s.store.queues[q]).records = r :: rest) :
    peekBody [b] s = (s, okData r.bytes) := by
  simp only [peekBody, h]
  rw [records]

/-! ## FLUSH (R97) -/

theorem flushBody_of_disabled {s : State} {b : Byte} (h : enabledQueue s b = none) :
    flushBody [b] s = refuseWith s .badArgument := by
  simp [flushBody, h]

theorem flushBody_of_enabled {s : State} {b : Byte} {q : QueueNo} (h : enabledQueue s b = some q) :
    flushBody [b] s = (changeQueue s q (s.store.queues[q]).records.length fun x => { x with records := [] },
      okData [byteOf (s.store.queues[q]).records.length]) := by
  simp only [flushBody, h]
  rfl

/-! ## QUEUE STATUS (R98) -/

theorem queueStatusBody_of_above {b : Byte} (s : State) (clear : Byte) (above : 7 < b.toNat) :
    queueStatusBody [b, clear] s = refuseWith s .badArgument := by
  simp [queueStatusBody, indexOf_eq_none (Nat.succ_le_of_lt above)]

theorem queueStatusBody_keep {b : Byte} {q : QueueNo} (s : State) (number : b.toNat = q.val) :
    queueStatusBody [b, 0] s = (s, okData (queueStatusBytes s q)) := by
  have keep : indexOf 2 0 = some 0 := indexOf_eq_some rfl
  simp only [queueStatusBody, indexOf_eq_some number, keep]
  rfl

theorem queueStatusBody_clear {b : Byte} {q : QueueNo} (s : State) (number : b.toNat = q.val) :
    queueStatusBody [b, 1] s =
      (changeQueue s q 0 fun x => { x with overflow := false, dropped := 0 }, okData (queueStatusBytes s q)) := by
  have clear : indexOf 2 1 = some 1 := indexOf_eq_some rfl
  simp only [queueStatusBody, indexOf_eq_some number, clear]
  rfl

/-- Settles O39: each clause is its command's body in that case, and what POP, FLUSH and a clearing QUEUE STATUS leave
unchanged is `exec_changeQueue`. -/
theorem queueCommandsActOnTheQueue : Obligations.QueueCommandsActOnTheQueue := by
  refine ⟨fun s q r t1 t0 topic => ⟨queueRecord_bytes_of_topic topic, ?statusLayout⟩,
    fun s b => ⟨fun noQueue => ?refused, fun above clear executes => ?statusRefused, fun q number => ?named⟩⟩
  case statusLayout =>
    unfold queueStatusBytes quotaOf watermarkOf overflowCode
    cases s.session.record <;> rfl
  case refused =>
    have disabled := enabledQueue_eq_none noQueue
    refine ⟨fun executes => ?_, fun executes => ?_, fun executes => ?_⟩
    · rw [exec_pop_of_executes executes, popBody_of_disabled disabled]
      rfl
    · rw [exec_peek_of_executes executes, peekBody_of_disabled disabled]
      rfl
    · rw [exec_flush_of_executes executes, flushBody_of_disabled disabled]
      rfl
  case statusRefused =>
    rw [exec_queueStatus_of_executes executes, queueStatusBody_of_above s clear above]
    rfl
  case named =>
    refine ⟨fun executes quota => ⟨fun records => ?popEmpty, fun r rest records => ?pop⟩,
      fun executes quota => ⟨fun records => ?peekEmpty, fun r rest records => ?peek⟩,
      fun executes quota => ?flush, fun executes => ?clear, fun executes => ?keep⟩
    case popEmpty =>
      rw [exec_pop_of_executes executes, popBody_of_nil (enabledQueue_eq_some number quota) records]
      rfl
    case pop =>
      apply exec_changeQueue (f := fun x => { x with records := rest })
      rw [exec_pop_of_executes executes, popBody_of_cons (enabledQueue_eq_some number quota) records]
      rfl
    case peekEmpty =>
      rw [exec_peek_of_executes executes, peekBody_of_nil (enabledQueue_eq_some number quota) records]
      rfl
    case peek =>
      rw [exec_peek_of_executes executes, peekBody_of_cons (enabledQueue_eq_some number quota) records]
      rfl
    case flush =>
      apply exec_changeQueue (f := fun x => { x with records := [] })
      rw [exec_flush_of_executes executes, flushBody_of_enabled (enabledQueue_eq_some number quota)]
      rfl
    case clear =>
      apply exec_changeQueue (n := 0) (f := fun x => { x with overflow := false, dropped := 0 })
      rw [exec_queueStatus_of_executes executes, queueStatusBody_clear s number]
      rfl
    case keep =>
      rw [exec_queueStatus_of_executes executes, queueStatusBody_keep s number]
      rfl

end Sys2Proof.Machine
end

section
/-! READ SLOT and LIST CHANGED SLOTS (6.6, 12.8): the slot record's layout, what READ SLOT does to the station, and the slots
that LIST CHANGED SLOTS names. -/

namespace Sys2Proof.Machine

/-! ## The slot record -/

/-- The layout of the slot record (12.8), with the codes of the slot state and of the stale reason (12.3). -/
theorem slot_bytes_layout (k : Slot) :
    k.bytes =
      (match k.state with | .empty => 0 | .fresh => 1 | .stale => 2)
      :: (match k.reason with | none => 0 | some .freshness => 1 | some .peerSilent => 2 | some .left => 3)
      :: flagByte [k.contents.first, k.contents.again, k.contents.selfMade, k.contents.gap, k.changed]
      :: (bytes16 k.limit ++ bytes16 k.contents.topic.toNat
        ++ byteOf k.contents.source.val :: k.contents.seq :: byteOf k.contents.missing
        :: (bytes32 k.contents.stamp.toNat ++ byteOf k.contents.payload.length :: k.contents.payload)) := by
  obtain ⟨state, contents, changed, limit, deadline, reason⟩ := k
  have stateByte : state.code = (match state with | .empty => 0 | .fresh => 1 | .stale => 2) := by
    cases state <;> rfl
  have reasonByte : staleCode reason =
      (match reason with | none => 0 | some .freshness => 1 | some .peerSilent => 2 | some .left => 3) := by
    obtain _ | why := reason
    · rfl
    · cases why <;> rfl
  simp only [Slot.bytes, stateByte, reasonByte]
  rfl

/-- An EMPTY slot holds its initial contents (R103). -/
theorem slotsFit_contents_of_empty {m : MessageStore} (fits : m.slotsFit) {k : SlotNo} (empty : (m.slots[k]).state = .empty) :
    (m.slots[k]).contents = Contents.initial := by
  obtain ⟨whenEmpty, -, -⟩ := fits k
  obtain ⟨contents, -⟩ := whenEmpty empty
  exact contents

/-! ## READ SLOT (R112) -/

/-- READ SLOT in the port is taken by the Message Store (R112, R174). -/
theorem exec_readSlot_of_executes {s : State} {args : List Byte} (h : Executes s 0x40 args) :
    exec (.readSlot args) s = .next (answered (readSlotBody args s).1 (readSlotBody args s).2) :=
  congrArg Host.Outcome.next (takeCommand_executes (readSlotBody args) h)

/-- A slot number above the last is refused (R112). -/
theorem readSlotBody_of_above {b : Byte} (s : State) (above : 63 < b.toNat) :
    readSlotBody [b] s = refuseWith s .badArgument := by
  simp [readSlotBody, indexOf_eq_none (Nat.succ_le_of_lt above)]

/-- A slot number in range: the slot's bytes as it stood, and its changed flag cleared (R112). -/
theorem readSlotBody_of_number {b : Byte} {k : SlotNo} (s : State) (number : b.toNat = k.val) :
    readSlotBody [b] s = (s.updSlot k fun x => { x with changed := false }, okData (s.store.slots[k]).bytes) := by
  simp [readSlotBody, indexOf_eq_some number]

/-- A command that changes one slot leaves the other slots and every other block as they were. -/
theorem exec_updSlot {s : State} {c : Instr} {k : SlotNo} {f : Slot → Slot} {r : Response}
    (h : exec c s = .next (answered (s.updSlot k f) r)) :
    ∃ t, exec c s = .next t ∧
      t = answered { s with store := { s.store with slots := t.store.slots } } r ∧
      t.store.slots[k] = f s.store.slots[k] ∧ ∀ j : SlotNo, j ≠ k → t.store.slots[j] = s.store.slots[j] :=
  ⟨_, h, rfl, upd_getElem_self _ _ _, fun _ ne => upd_getElem_of_ne _ _ ne.symm⟩

/-- Settles O40: a number up to 63 is answered with the slot's bytes and `exec_updSlot` says what clearing its flag leaves,
a number above it is refused, and `slotsFit` gives an EMPTY slot its initial contents. -/
theorem readSlotClearsTheChangedFlag : Obligations.ReadSlotClearsTheChangedFlag := by
  refine ⟨slot_bytes_layout, fun s b executes => ⟨fun above => ?refused, fun k number => ?read⟩⟩
  case refused =>
    rw [exec_readSlot_of_executes executes, readSlotBody_of_above s above]
    rfl
  case read =>
    have cleared : exec (.readSlot [b]) s =
        .next (answered (s.updSlot k fun x => { x with changed := false }) (okData (s.store.slots[k]).bytes)) := by
      rw [exec_readSlot_of_executes executes, readSlotBody_of_number s number]
    obtain ⟨t, next, frame, slot, others⟩ := exec_updSlot cleared
    exact ⟨t, next, frame, slot, others, fun fits empty => slotsFit_contents_of_empty fits empty⟩

/-! ## LIST CHANGED SLOTS (R113) -/

/-- LIST CHANGED SLOTS in the port is taken by the Message Store (R113, R174). -/
theorem exec_listChangedSlots_of_executes {s : State} {args : List Byte} (h : Executes s 0x41 args) :
    exec (.listChangedSlots args) s = .next (answered (listChangedSlotsBody args s).1 (listChangedSlotsBody args s).2) :=
  congrArg Host.Outcome.next (takeCommand_executes (listChangedSlotsBody args) h)

/-- The slots are listed in the order of their numbers. -/
theorem changedSlots_ascending (s : State) : (changedSlots s).Pairwise (· < ·) :=
  (List.pairwise_lt_finRange 64).filter _

/-- At most every slot is listed. -/
theorem changedSlots_length_le (s : State) : (changedSlots s).length ≤ 64 :=
  calc (changedSlots s).length
    _ ≤ (List.finRange 64).length := List.length_filter_le _ _
    _ = 64 := List.length_finRange

/-- A slot is listed exactly when its changed flag is set. -/
theorem mem_changedSlots {s : State} {k : SlotNo} : k ∈ changedSlots s ↔ (s.store.slots[k]).changed = true := by
  unfold changedSlots
  rw [List.mem_filter]
  exact and_iff_right (List.mem_finRange k)

/-- Settles O38: the list answered is `changedSlots`, the numbers from 0 to 63 filtered by the changed flag. -/
theorem listChangedSlotsNamesThemInOrder : Obligations.ListChangedSlotsNamesThemInOrder := fun s executes =>
  ⟨changedSlots s, exec_listChangedSlots_of_executes executes, changedSlots_ascending s, changedSlots_length_le s,
    fun _ => mem_changedSlots⟩

end Sys2Proof.Machine
end

section
/-! READ PUBLICATION (7.2, 12.7): the layout of the publication entry, and the command's two outcomes. -/

namespace Sys2Proof.Machine

/-- The layout of the publication entry (12.7): the pending item is 0 for none, 1 for NEW and 2 for REPEAT, and a station
field is 0xFF where there is none. -/
theorem pubEntry_bytes_layout (e : PubEntry) :
    e.bytes =
      e.state.code :: bytes16 e.topic.toNat
      ++ byteOf e.cls.val :: e.mode.code :: bytes16 e.period
      ++ [flagByte [e.hasValue, e.dirty, e.firstArmed, e.inFlight, e.periodicTimer.isSome, e.holdOff.isSome],
          (match e.item with | none => 0 | some .newValue => 1 | some .repeatValue => 2),
          e.nextSeq,
          (match e.yieldedTo with | none => 0xFF | some x => byteOf x.val),
          (match e.conflict with | none => 0xFF | some x => byteOf x.val),
          byteOf e.payload.length]
      ++ e.payload := by
  have itemByte : pendingCode e.item =
      (match e.item with | none => 0 | some .newValue => 1 | some .repeatValue => 2) := by
    obtain _ | kind := e.item
    · rfl
    · cases kind <;> rfl
  have stationField (x : Option Station) :
      stationByte x = (match x with | none => 0xFF | some n => byteOf n.val) := by
    cases x <;> rfl
  have layout := PubEntry.bytes.eq_1 e
  rw [itemByte, stationField, stationField] at layout
  exact layout

/-- READ PUBLICATION in the port is taken by the Publication Unit (R121, R174). -/
theorem exec_readPublication_of_executes {s : State} {args : List Byte} (h : Executes s 0x53 args) :
    exec (.readPublication args) s = .next (answered (readPublicationBody args s).1 (readPublicationBody args s).2) :=
  congrArg Host.Outcome.next (takeCommand_executes (readPublicationBody args) h)

/-- An index of the publication table: the entry's bytes, and no change of state (R121). -/
theorem readPublicationBody_of_index {b : Byte} {i : PubIndex} (s : State) (index : b.toNat = i.val) :
    readPublicationBody [b] s = (s, okData s.pubs.table[i].bytes) := by
  simp [readPublicationBody, indexOf_eq_some index]

/-- An index above the publication table's last is refused (R121). -/
theorem readPublicationBody_of_above {b : Byte} (s : State) (above : 31 < b.toNat) :
    readPublicationBody [b] s = refuseWith s .badArgument := by
  simp [readPublicationBody, indexOf_eq_none (Nat.succ_le_of_lt above)]

/-- Settles O37: the state and mode codes evaluate to those of 12.3, an index up to 31 is answered with the entry's bytes,
laid out by `pubEntry_bytes_layout`, and an index above it is refused. -/
theorem readPublicationReturnsTheEntry : Obligations.ReadPublicationReturnsTheEntry := by
  refine ⟨⟨rfl, rfl⟩, fun s b executes => ⟨fun i index => ?entry, fun above => ?refused⟩⟩
  case entry =>
    rw [exec_readPublication_of_executes executes, readPublicationBody_of_index s index, pubEntry_bytes_layout]
    rfl
  case refused =>
    rw [exec_readPublication_of_executes executes, readPublicationBody_of_above s above]
    rfl

end Sys2Proof.Machine
end

section
/-! STATUS (10.5, 12.7): the flags byte and the fields of several bytes, the layout of the response, and the command in the
port. -/

namespace Sys2Proof.Machine

/-! ## Flags bytes and fields of several bytes (R189) -/

/-- Bit `n` of a number made of flags is the list's flag `n`, and clear beyond the list. -/
theorem testBit_flagNat (flags : List Bool) (n : Nat) : (flagNat flags).testBit n = flags.getD n false := by
  induction flags generalizing n with
  | nil => simp [flagNat]
  | cons b bs ih =>
    cases n with
    | zero => cases b <;> simp [flagNat, Nat.testBit_zero]
    | succ n =>
      have bit := b.toNat_lt
      have half : (b.toNat + 2 * flagNat bs) / 2 = flagNat bs := by omega
      rw [flagNat, Nat.testBit_succ, half, ih, List.getD_cons_succ]

/-- A flags byte of at most eight flags has its first flag in bit 0 (R189). -/
theorem getLsbD_flagByte {flags : List Bool} (length : flags.length ≤ 8) (n : Nat) :
    (flagByte flags).getLsbD n = flags.getD n false := by
  rw [flagByte, BitVec.getLsbD_ofNat, testBit_flagNat]
  by_cases inByte : n < 8
  · simp [inByte]
  · have beyond : flags.getD n false = false := by
      rw [List.getD_eq_default _ _ (by omega)]
    rw [beyond, Bool.and_false]

/-- A 32-bit field made of four bytes is sent as these four, the high one first (R189). -/
theorem bytes32_append (a b c d : Byte) : bytes32 (a ++ b ++ c ++ d).toNat = [a, b, c, d] := by
  have step {w : Nat} (x : BitVec w) (y : Byte) : (x ++ y).toNat = x.toNat * 256 + y.toNat := by
    rw [BitVec.toNat_append, ← Nat.shiftLeft_add_eq_or_of_lt y.isLt, Nat.shiftLeft_eq]
  have byte (x : Byte) (n : Nat) (h : n % 256 = x.toNat) : byteOf n = x :=
    BitVec.eq_of_toNat_eq (by rw [byteOf, BitVec.toNat_ofNat]; exact h)
  rw [step, step, step, bytes32, byte a, byte b, byte c, byte d] <;> omega

/-! ## STATUS (R178) -/

/-- STATUS in the port is taken by the Host Port (R178, R174). -/
theorem exec_status_of_executes {s : State} {args : List Byte} (h : Executes s 0x04 args) :
    exec (.status args) s = .next (answered (statusBody args s).1 (statusBody args s).2) :=
  congrArg Host.Outcome.next (takeCommand_executes (statusBody args) h)

/-- The layout of the data of STATUS (12.7): last epoch seen is 0xFFFF where there is none. -/
theorem statusBytes_layout (s : State) :
    statusBytes s =
      [flagByte [s.session.record.isSome, s.session.frozen], s.session.state.code, s.access.standing.code,
       byteOf s.access.score]
      ++ (match s.epoch.lastSeen with | none => [0xFF, 0xFF] | some e => [0x00, e])
      ++ [byteOf s.store.free, byteOf s.port.notices.length, flagByte [s.port.lost]]
      ++ bytes16 (rawConditions s).toNat ++ bytes16 s.port.mask.toNat := by
  unfold statusBytes
  cases s.epoch.lastSeen <;> rfl

/-- Settles O34: the codes evaluate to those of 12.3, `getLsbD_flagByte`, `bytes16_append` and `bytes32_append` are the byte
layouts, and STATUS answers `statusBytes` with the station as it stands. -/
theorem statusReportsTheStation : Obligations.StatusReportsTheStation := by
  refine ⟨⟨rfl, rfl⟩, fun flags n length => getLsbD_flagByte length n, fun n => BitVec.toNat_ofNat n 8,
    fun a b c d => ⟨bytes16_append a b, bytes32_append a b c d⟩, fun s executes => ?answer⟩
  case answer =>
    have taken : statusBody [] s = (s, okData (statusBytes s)) := rfl
    rw [exec_status_of_executes executes, taken, statusBytes_layout]
    rfl

end Sys2Proof.Machine
end

section
/-! SUPPORT. Which operations leave the Host Port as it stands: the blocks act, and hand the notices they post to the port
only at the end. -/

namespace Sys2Proof.Machine

/-! ## The shared operations -/

@[simp] theorem placeItem_port (s : State) (k : ItemKind) (c : FrameClass) : (placeItem s k c).port = s.port := rfl
@[simp] theorem removeItem_port (s : State) (k : ItemKind) : (removeItem s k).port = s.port := rfl
@[simp] theorem raiseScore_port (s : State) (n : Nat) : (raiseScore s n).1.port = s.port := rfl
@[simp] theorem lowerScore_port (s : State) (n : Nat) : (lowerScore s n).1.port = s.port := rfl
@[simp] theorem resetBases_port (s : State) : (resetBases s).port = s.port := rfl
@[simp] theorem settleBooking_port (s : State) : (settleBooking s).port = s.port := by
  rw [settleBooking_eq, setAccess_port]
@[simp] theorem bookAtCycle_port (s : State) : (bookAtCycle s).port = s.port := by
  rw [bookAtCycle_eq, setAccess_port]

/-! ## Continuity Unit -/

@[simp] theorem makeRecall_port (s : State) (p : RecallPos) (topic : Topic) (o : RecallOrigin) :
    (makeRecall s p topic o).port = s.port := rfl
@[simp] theorem requestRecall_port (s : State) (topic : Topic) (o : RecallOrigin) :
    (requestRecall s topic o).port = s.port := by
  rw [requestRecall_eq, setPubs_port, setCont_port]
@[simp] theorem cancelRecalls_port (s : State) : (cancelRecalls s).1.port = s.port := rfl
@[simp] theorem continuityAtFrame_port (own : Bool) (f : Frame) (s : State) :
    (continuityAtFrame own f s).1.port = s.port := by
  rw [continuityAtFrame_eq, setPubs_port, setCont_port]

@[simp] theorem recallSent_port (s : State) (topic : Topic) : (recallSent s topic).port = s.port := by
  unfold recallSent
  split <;> rfl

@[simp] theorem recallAbandoned_port (s : State) (topic : Topic) : (recallAbandoned s topic).1.port = s.port := by
  unfold recallAbandoned
  split <;> rfl

@[simp] theorem recallExpiry_port (p : RecallPos) (s : State) : (recallExpiry p s).1.port = s.port := by
  unfold recallExpiry
  dsimp only
  split <;> rfl

/-! ## Message Store and Acceptance Unit -/

@[simp] theorem makeStale_port (s : State) (k : SlotNo) (reason : StaleReason) :
    (makeStale s k reason).1.port = s.port := by
  rw [makeStale, staleRequests_eq, setPubs_port, setCont_port, updSlot_port]

@[simp] theorem staleBySilence_port (s : State) (x : Station) : (staleBySilence s x).1.port = s.port := by
  unfold staleBySilence
  refine List.foldlRecOn (motive := fun p : Posting => p.1.port = s.port) _ _ rfl fun p kept k _ => ?_
  dsimp only
  split
  · rw [andThen_fst, makeStale_port, kept]
  · exact kept

@[simp] theorem releaseFrame_port (s : State) : (releaseFrame s).port = s.port := by
  rw [releaseFrame_eq, setStore_port, setAccept_port]
@[simp] theorem matchingWalk_port (s : State) (h : Header) : (matchingWalk s h).port = s.port := by
  rw [matchingWalk, walk_eq, setStore_port, setAccept_port, setPlan, setAccept_port]
@[simp] theorem closeFrame_port (s : State) : (closeFrame s).port = s.port := by
  rw [closeFrame, setAccept_port]

@[simp] theorem trackClassified_port (s : State) (x : Station) (topic : Topic) (seq : SeqNo) (c : Option Classification) :
    (trackClassified s x topic seq c).port = s.port := by
  cases c <;> rfl

@[simp] theorem settleTargets_port (own : Bool) (x : Station) (topic : Topic) (seq : SeqNo) (a b : Bool) (p : List Byte)
    (c : Option Classification) (rs : List Reserved) (s : State) :
    (rs.foldl (settleTarget own x topic seq a b p c) s).port = s.port := by
  induction rs generalizing s with
  | nil => rfl
  | cons r rs ih =>
    rw [List.foldl_cons, ih, settleTarget_eq]
    rfl

@[simp] theorem recordMark_port (s : State) : (recordMark s).1.port = s.port := by
  unfold recordMark
  split <;> rfl

@[simp] theorem acceptanceAtFrame_port (own headerSeen : Bool) (f : Frame) (s : State) :
    (acceptanceAtFrame own headerSeen f s).1.port = s.port := by
  unfold acceptanceAtFrame
  split
  · split <;> simp [settleUpdate]
  · rfl

/-! ## Publication Unit -/

@[simp] theorem makePendingNew_port (s : State) (i : PubIndex) : (makePendingNew s i).port = s.port := by
  rw [makePendingNew_eq, setPubs_port]
@[simp] theorem announce_port (s : State) : (announce s).port = s.port := by
  rw [announce_eq, setPubs_port]
@[simp] theorem updateSent_port (s : State) (i : PubIndex) (b : Bool) : (updateSent s i b).port = s.port := by
  rw [updateSent_eq, setPubs_port]
@[simp] theorem updateCollided_port (s : State) (i : PubIndex) : (updateCollided s i).port = s.port := by
  rw [updateCollided_eq, setPubs_port]
@[simp] theorem publicationAtFrame_port (own : Bool) (f : Frame) (s : State) :
    (publicationAtFrame own f s).1.port = s.port := by
  rw [publicationAtFrame_eq, setPubs_port]
@[simp] theorem stopSending_port (s : State) : (stopSending s).port = s.port := by
  rw [stopSending, setPubs_port]

@[simp] theorem writeEntry_port (s : State) (i : PubIndex) (value : List Byte) : (writeEntry s i value).port = s.port := by
  unfold writeEntry
  dsimp only
  split
  · split <;> simp
  · rfl

@[simp] theorem periodicExpiry_port (s : State) (i : PubIndex) : (periodicExpiry s i).port = s.port := by
  unfold periodicExpiry
  dsimp only
  split
  · rfl
  · split
    · split <;> rfl
    · simp

/-! ## Epoch Unit and Roster -/

@[simp] theorem epochLeft_port (s : State) : (epochLeft s).1.port = s.port := rfl
@[simp] theorem epochCollided_port (s : State) : (epochCollided s).port = s.port := rfl
@[simp] theorem epochAtFrame_port (own : Bool) (f : Frame) (s : State) : (epochAtFrame own f s).1.port = s.port := by
  rw [epochAtFrame_eq, setPubs_port, setEpoch_port]
@[simp] theorem rosterAtFrame_port (own : Bool) (f : Frame) (s : State) : (rosterAtFrame own f s).1.port = s.port := by
  rw [rosterAtFrame_eq, setCont_port, setRoster_port]
@[simp] theorem peerFallsSilent_port (x : Station) (s : State) : (peerFallsSilent x s).1.port = s.port := by
  simp [peerFallsSilent]

/-! ## Session Controller -/

@[simp] theorem restartPresence_port (s : State) : (restartPresence s).port = s.port := rfl
@[simp] theorem refuse_port (reason : RefusalReason) (s : State) : (refuse reason s).1.port = s.port := rfl

@[simp] theorem defend_port (s : State) : (defend s).port = s.port := by
  unfold defend
  split
  · rfl
  · split <;> rfl

@[simp] theorem answerDuplicate_port (f : Frame) (s : State) : (answerDuplicate f s).1.port = s.port := by
  unfold answerDuplicate
  split
  · simp
  · dsimp only
    split
    · simp
    · split <;> simp
  all_goals simp

@[simp] theorem sessionAtFrame_port (own : Bool) (f : Frame) (s : State) : (sessionAtFrame own f s).1.port = s.port := by
  unfold sessionAtFrame
  split
  · unfold ownCleanEnd
    split <;> simp [enterMember]
  · split
    · unfold foreignOwnNumber
      split <;> simp
    · rfl

@[simp] theorem clearSession_port (s : State) : (clearSession s).port = s.port := by
  simp [clearSession, slotsLeft, pubsLeft]
@[simp] theorem leaveComplete_port (s : State) : (leaveComplete s).1.port = s.port := by
  simp [leaveComplete]
@[simp] theorem startClaiming_port (s : State) : (startClaiming s).port = s.port := rfl

@[simp] theorem presenceExpiry_port (s : State) : (presenceExpiry s).port = s.port := by
  unfold presenceExpiry
  dsimp only
  split <;> rfl

/-! ## Access Controller and Line Interface -/

@[simp] theorem countAttempt_port (s : State) (k : ItemKind) : (countAttempt s k).port = s.port := rfl
@[simp] theorem gapEnd_port (s : State) : (gapEnd s).port = s.port := bookAtCycle_port _
@[simp] theorem slotCycleStart_port (s : State) : (slotCycleStart s).port = s.port := bookAtCycle_port _

@[simp] theorem noteLatch_port (s : State) (k : ItemKind) : (noteLatch s k).port = s.port := by
  cases k <;> rfl

@[simp] theorem startAttempt_port (s : State) (it : Item) : (startAttempt s it).port = s.port := by
  simp [startAttempt]

@[simp] theorem bookedSlotStart_port (b : Fin 256) (s : State) : (bookedSlotStart b s).port = s.port := by
  unfold bookedSlotStart
  dsimp only
  split <;> simp

@[simp] theorem ownerAbandoned_port (k : ItemKind) (s : State) : (ownerAbandoned k s).1.port = s.port := by
  cases k with
  | claim =>
    unfold ownerAbandoned
    dsimp only
    split <;> rfl
  | presence defence => rfl
  | epoch => rfl
  | recallItem topic => exact recallAbandoned_port s topic
  | update i => rfl

@[simp] theorem abandon_port (k : ItemKind) (s : State) : (abandon k s).1.port = s.port := by
  simp [abandon]

@[simp] theorem ownerCollided_port (k : ItemKind) (s : State) : (ownerCollided k s).port = s.port := by
  have removed : (if s.session.state = .leaving then removeItem s k else s).port = s.port := by
    split <;> rfl
  cases k <;> simp [ownerCollided, removed]

@[simp] theorem finishLeaving_port (s : State) : (finishLeaving s).1.port = s.port := by
  unfold finishLeaving
  split <;> simp

/-! ## The frame in reception -/

@[simp] theorem headerEvent_port (s : State) (r : Reception) (rx : Receiver) : (headerEvent s r rx).port = s.port :=
  matchingWalk_port _ _

@[simp] theorem impliedHeader_port (levels : List LineLevel) (s : State) (r : Reception) :
    (impliedHeader levels s r).1.port = s.port := by
  unfold impliedHeader
  split
  · rfl
  · split <;> simp

@[simp] theorem cleanEnd_port (s : State) : (cleanEnd s).port = s.port := by
  unfold cleanEnd
  split
  · unfold ownerClean
    split <;> simp
  · rfl

@[simp] theorem accessAtFrame_port (own : Bool) (f : Frame) (s : State) : (accessAtFrame own f s).1.port = s.port := by
  unfold accessAtFrame
  dsimp only
  split
  · simp [setBase]
  · split <;> rfl

@[simp] theorem dropFrame_port (headerSeen : Bool) (s : State) : (dropFrame headerSeen s).port = s.port := by
  unfold dropFrame
  split <;> simp

@[simp] theorem closeReception_port (s : State) (rx : Receiver) : (closeReception s rx).port = s.port := rfl

end Sys2Proof.Machine
end

section
/-! SUPPORT. The attention mask (R183): the posting of notices leaves it, and so does every row but SET ATTENTION MASK and
the resets. -/

namespace Sys2Proof.Machine

/-! ## Postings -/

@[simp] theorem post_mask (s : State) (n : Notice) : (post s n).port.mask = s.port.mask := by
  obtain ⟨l, b, posted⟩ := post_eq s n
  rw [posted]
  rfl

@[simp] theorem postAll_mask (s : State) (ns : List Notice) : (postAll s ns).port.mask = s.port.mask :=
  postAll_keeps (fun u => u.port.mask = s.port.mask) (fun u n kept => (post_mask u n).trans kept) ns s rfl

@[simp] theorem done_mask (p : Posting) : p.done.port.mask = p.1.port.mask := postAll_mask p.1 p.2

/-! ## Events on the line -/

@[simp] theorem collideAt_mask (m : Option Nat) (s : State) : (collideAt m s).port.mask = s.port.mask := by
  unfold collideAt
  split
  · simp [collide]
  · rfl

@[simp] theorem lineActivity_mask (run idle : Nat) (s : State) : (lineActivity run idle s).port.mask = s.port.mask := by
  unfold lineActivity
  split
  · rfl
  · split
    · dsimp only
      rw [collideAt_mask]
      split <;> rfl
    · rfl

@[simp] theorem impliedMark_mask (s : State) : (impliedMark s).port.mask = s.port.mask := lineActivity_mask 6 2 _

@[simp] theorem collision_mask (received : List LineLevel) (s : State) :
    (collision received s).port.mask = s.port.mask := by
  unfold collision
  dsimp only
  rw [collideAt_mask]
  unfold ownMark
  split
  · split <;> simp
  · rfl

@[simp] theorem jamEnd_mask (f : Flight) (s : State) : (jamEnd f s).port.mask = s.port.mask := by
  unfold jamEnd
  dsimp only
  rw [settleBooking_port, done_mask, andThen_fst, finishLeaving_port]
  split <;> simp

@[simp] theorem blockedLine_mask (m : BlockedMeasure) (s : State) : (blockedLine m s).port.mask = s.port.mask := by
  simp [blockedLine]

/-- Opening the frame in reception can imply a start mark, which leaves the mask. -/
theorem openedFrame_mask {s u : State} {r : Reception} (opened : openedFrame s = some (r, u)) :
    u.port.mask = s.port.mask := by
  unfold openedFrame at opened
  split at opened
  · cases opened
    rfl
  · dsimp only at opened
    split at opened
    · cases opened
      exact impliedMark_mask s
    all_goals cases opened
  all_goals cases opened

@[simp] theorem headerComplete_mask (levels : List LineLevel) (s : State) :
    (headerComplete levels s).port.mask = s.port.mask := by
  unfold headerComplete
  split
  · rename_i opened
    dsimp only
    split
    · rw [headerEvent_port, collideAt_mask, openedFrame_mask opened]
    · split
      · rw [collideAt_mask, openedFrame_mask opened]
      · rfl
  · rfl

@[simp] theorem cleanFrame_mask (own headerSeen : Bool) (f : Frame) (s : State) :
    (cleanFrame own headerSeen f s).port.mask = s.port.mask := by
  unfold cleanFrame
  refine actTogether_keeps (fun u => u.port.mask = s.port.mask) _ (fun act acts u kept => ?_)
    (fun u n kept => (post_mask u n).trans kept) (fun _ _ kept => kept) s rfl
  have untouched : (act u).1.port = u.port := by
    simp only [List.mem_cons, List.not_mem_nil, or_false] at acts
    obtain rfl | rfl | rfl | rfl | rfl | rfl | rfl := acts <;> simp
  rw [untouched, kept]

@[simp] theorem actOnOutcome_mask (own headerSeen : Bool) (o : FrameOutcome) (s : State) :
    (actOnOutcome own headerSeen o s).port.mask = s.port.mask := by
  cases o <;> simp [actOnOutcome]

@[simp] theorem leaveAfterFrame_mask (own : Bool) (o : FrameOutcome) (s : State) :
    (leaveAfterFrame own o s).port.mask = s.port.mask := by
  unfold leaveAfterFrame
  split <;> simp

@[simp] theorem endFrame_mask (levels : List LineLevel) (r : Reception) (rx : Receiver) (s : State) :
    (endFrame levels r rx s).port.mask = s.port.mask := by
  simp [endFrame]

@[simp] theorem frameEnd_mask (levels : List LineLevel) (s : State) : (frameEnd levels s).port.mask = s.port.mask := by
  unfold frameEnd
  split
  · rename_i opened
    dsimp only
    split
    · rw [endFrame_mask, collideAt_mask, openedFrame_mask opened]
    · split
      · rw [collideAt_mask, openedFrame_mask opened]
      · rfl
  · rfl

/-! ## Commands -/

/-- A command leaves the mask when its owner does: the response is placed beside it. -/
theorem takeCommand_mask {s : State} {body : State → State × Response} (code : Byte) (args : List Byte)
    (kept : (body s).1.port.mask = s.port.mask) : (takeCommand s code args body).port.mask = s.port.mask := by
  unfold takeCommand
  split
  · exact kept
  · rfl

theorem configureBody_port (args : List Byte) (s : State) : (configureBody args s).1.port = s.port := by
  fun_cases configureBody args s <;> rfl

theorem joinBody_port (args : List Byte) (s : State) : (joinBody args s).1.port = s.port := by
  fun_cases joinBody args s <;> rfl

theorem leaveNow_mask (s : State) : (leaveNow s).port.mask = s.port.mask := by
  unfold leaveNow
  split <;> simp

theorem leaveBody_mask (args : List Byte) (s : State) : (leaveBody args s).1.port.mask = s.port.mask := by
  fun_cases leaveBody args s
  -- LISTENING, CLAIMING, MEMBER and REFUSED leave; the other branches change nothing.
  case case3 | case4 | case5 | case6 => exact leaveNow_mask s
  all_goals rfl

theorem statusBody_port (args : List Byte) (s : State) : (statusBody args s).1.port = s.port := by
  fun_cases statusBody args s <;> rfl

theorem readNoticeBody_mask (args : List Byte) (s : State) : (readNoticeBody args s).1.port.mask = s.port.mask := by
  fun_cases readNoticeBody args s <;> rfl

theorem readRosterBody_port (args : List Byte) (s : State) : (readRosterBody args s).1.port = s.port := by
  fun_cases readRosterBody args s <;> rfl

theorem handLimit_port (s : State) (target : Target) (limit : Nat) : (handLimit s target limit).port = s.port := by
  cases target <;> rfl

theorem subscribeBody_port (args : List Byte) (s : State) : (subscribeBody args s).1.port = s.port := by
  fun_cases subscribeBody args s
  -- The accepted SUBSCRIBE, with and without RECALL; every other branch refuses.
  case case3 =>
    refine (settleBooking_port _).trans ?_
    split
    · exact (requestRecall_port _ _ _).trans (handLimit_port _ _ _)
    · exact handLimit_port _ _ _
  all_goals rfl

theorem unsubscribeBody_port (args : List Byte) (s : State) : (unsubscribeBody args s).1.port = s.port := by
  fun_cases unsubscribeBody args s <;> rfl

theorem readSubscriptionBody_port (args : List Byte) (s : State) : (readSubscriptionBody args s).1.port = s.port := by
  fun_cases readSubscriptionBody args s <;> rfl

theorem popBody_port (args : List Byte) (s : State) : (popBody args s).1.port = s.port := by
  fun_cases popBody args s <;> rfl

theorem peekBody_port (args : List Byte) (s : State) : (peekBody args s).1.port = s.port := by
  fun_cases peekBody args s <;> rfl

theorem flushBody_port (args : List Byte) (s : State) : (flushBody args s).1.port = s.port := by
  fun_cases flushBody args s <;> rfl

theorem queueStatusBody_port (args : List Byte) (s : State) : (queueStatusBody args s).1.port = s.port := by
  fun_cases queueStatusBody args s
  -- Both numbers in range, with and without the clearing.
  case case1 => split <;> rfl
  all_goals rfl

theorem readSlotBody_port (args : List Byte) (s : State) : (readSlotBody args s).1.port = s.port := by
  fun_cases readSlotBody args s <;> rfl

theorem listChangedSlotsBody_port (args : List Byte) (s : State) : (listChangedSlotsBody args s).1.port = s.port := by
  fun_cases listChangedSlotsBody args s <;> rfl

theorem declareBody_port (args : List Byte) (s : State) : (declareBody args s).1.port = s.port := by
  fun_cases declareBody args s
  -- The accepted DECLARE, in MEMBER and outside it; every other branch refuses.
  case case6 =>
    dsimp only
    split
    · exact (settleBooking_port _).trans (makePendingNew_port _ _)
    · rfl
  all_goals rfl

theorem writeValueBody_port (args : List Byte) (s : State) : (writeValueBody args s).1.port = s.port := by
  fun_cases writeValueBody args s
  -- The write to an ACTIVE entry; every other branch refuses.
  case case6 => simp
  all_goals rfl

theorem withdrawBody_port (args : List Byte) (s : State) : (withdrawBody args s).1.port = s.port := by
  fun_cases withdrawBody args s
  -- The ACTIVE entry, in flight or not.
  case case3 =>
    dsimp only
    split <;> rfl
  all_goals rfl

theorem readPublicationBody_port (args : List Byte) (s : State) : (readPublicationBody args s).1.port = s.port := by
  fun_cases readPublicationBody args s <;> rfl

theorem recallBody_port (args : List Byte) (s : State) : (recallBody args s).1.port = s.port := by
  fun_cases recallBody args s
  -- The request that takes a FREE position.
  case case4 => simp
  all_goals rfl

theorem epochBody_port (args : List Byte) (s : State) : (epochBody args s).1.port = s.port := by
  fun_cases epochBody args s
  -- The request that waits with a new item.
  case case2 => simp
  all_goals rfl

theorem snapshotOpenBody_port (args : List Byte) (s : State) : (snapshotOpenBody args s).1.port = s.port := by
  fun_cases snapshotOpenBody args s <;> rfl

theorem snapshotReadBody_port (args : List Byte) (s : State) : (snapshotReadBody args s).1.port = s.port := by
  fun_cases snapshotReadBody args s <;> rfl

theorem snapshotReleaseBody_port (args : List Byte) (s : State) : (snapshotReleaseBody args s).1.port = s.port := by
  fun_cases snapshotReleaseBody args s <;> rfl

/-! ## Transactions -/

theorem fetchEnd_mask (whole : Nat) (c : Captured) (s : State) : (fetchEnd whole c s).port.mask = s.port.mask := by
  unfold fetchEnd
  dsimp only
  split <;> rfl

theorem commandEnd_mask (bytes : List Byte) (trailing : Nat) (c : Captured) (s : State) :
    (commandEnd bytes trailing c s).port.mask = s.port.mask := by
  unfold commandEnd
  dsimp only
  split
  · split <;> rfl
  · rfl

theorem transactionEnd_mask {s : State} {act : Captured → State → State}
    (kept : ∀ c, (act c s).port.mask = s.port.mask) : (transactionEnd s act).port.mask = s.port.mask := by
  unfold transactionEnd
  split
  · exact kept _
  all_goals rfl

/-! ## Every row of the table -/

/-- An event that acts under a condition alone. -/
theorem guarded_mask {s u : State} {p : Prop} [Decidable p] (kept : u.port.mask = s.port.mask) :
    (if p then u else s).port.mask = s.port.mask := by
  split
  · exact kept
  · rfl

theorem mask_of_next {s t u : State} (kept : u.port.mask = s.port.mask) (next : (.next u : Result) = .next t) :
    t.port.mask = s.port.mask := by
  cases next
  exact kept

/-- What an event leaves while the part runs, it leaves. -/
theorem mask_of_event {s t : State} {act : State → State} (kept : (act s).port.mask = s.port.mask)
    (next : (.next (whenRunning s act) : Result) = .next t) : t.port.mask = s.port.mask := by
  refine mask_of_next ?_ next
  unfold whenRunning
  split
  · rfl
  · exact kept

/-- A command whose owner leaves the port as it stands leaves the mask. -/
theorem mask_of_command {s t : State} {code : Byte} {args : List Byte} {body : State → State × Response}
    (kept : (body s).1.port = s.port) (next : (.next (takeCommand s code args body) : Result) = .next t) :
    t.port.mask = s.port.mask :=
  mask_of_next (takeCommand_mask code args (congrArg HostPort.mask kept)) next

theorem execBookedSlotStart_mask {s t : State} (next : execBookedSlotStart s = .next t) : t.port.mask = s.port.mask := by
  refine mask_of_event ?_ next
  split
  · exact guarded_mask (by simp)
  · rfl

theorem execSendEnd_mask {s t : State} (next : execSendEnd s = .next t) : t.port.mask = s.port.mask := by
  refine mask_of_event ?_ next
  split <;> rfl

theorem execJamEnd_mask {s t : State} (next : execJamEnd s = .next t) : t.port.mask = s.port.mask := by
  refine mask_of_event ?_ next
  split
  · exact jamEnd_mask _ s
  · rfl

theorem execBlockedLineEvent_mask {s t : State} (next : execBlockedLineEvent s = .next t) :
    t.port.mask = s.port.mask := by
  refine mask_of_event ?_ next
  split
  · split
    · rfl
    · exact blockedLine_mask _ s
  · rfl

theorem execTransactionBegin_mask {s t : State} (next : execTransactionBegin s = .next t) :
    t.port.mask = s.port.mask := by
  refine mask_of_next ?_ next
  split <;> rfl

theorem execCommandTransaction_mask {bytes : List Byte} {trailing : Nat} {s t : State}
    (next : execCommandTransaction bytes trailing s = .next t) : t.port.mask = s.port.mask := by
  refine mask_of_next ?_ next
  split
  · rfl
  · split
    · exact transactionEnd_mask fun c => fetchEnd_mask _ c s
    · exact transactionEnd_mask fun c => commandEnd_mask _ trailing c s

theorem execFetchTransaction_mask {whole : Nat} {s t : State} (next : execFetchTransaction whole s = .next t) :
    t.port.mask = s.port.mask := by
  refine mask_of_next ?_ next
  split
  · rfl
  · exact transactionEnd_mask fun c => fetchEnd_mask whole c s

/-- Every row but SET ATTENTION MASK and those that end in the port's initial values leaves the attention mask as it stands
(R183). -/
theorem exec_mask {c : Instr} {s t : State} (notSet : ∀ args, c ≠ .setAttentionMask args)
    (notSoft : ∀ args, c ≠ .softReset args) (notPower : c ≠ .powerOn) (notPin : ∀ n rises, c ≠ .resetPin n rises)
    (notEnd : c ≠ .resetEnd) (next : exec c s = .next t) : t.port.mask = s.port.mask := by
  cases c with
  | setAttentionMask args => exact absurd rfl (notSet args)
  | softReset args => exact absurd rfl (notSoft args)
  | powerOn => exact absurd rfl notPower
  | resetPin n rises => exact absurd rfl (notPin n rises)
  | resetEnd => exact absurd rfl notEnd
  | lineActivity run idle => exact mask_of_event (lineActivity_mask run idle s) next
  | gapEnd => exact mask_of_event (guarded_mask (by simp)) next
  | slotCycleStart => exact mask_of_event (guarded_mask (by simp)) next
  | bookedSlotStart => exact execBookedSlotStart_mask next
  | sendEnd => exact execSendEnd_mask next
  | collision received => exact mask_of_event (collision_mask received s) next
  | jamEnd => exact execJamEnd_mask next
  | blockedLineEvent => exact execBlockedLineEvent_mask next
  | headerComplete levels => exact mask_of_event (headerComplete_mask levels s) next
  | frameEnd levels => exact mask_of_event (frameEnd_mask levels s) next
  | listenWindowExpiry => exact mask_of_event (guarded_mask (by simp)) next
  | presenceTimerExpiry => exact mask_of_event (guarded_mask (by simp)) next
  | silenceDeadlineExpiry peer => exact mask_of_event (guarded_mask (by simp)) next
  | freshnessDeadlineExpiry slot => exact mask_of_event (guarded_mask (by simp)) next
  | periodicTimerExpiry index => exact mask_of_event (guarded_mask (by simp)) next
  | holdOffExpiry index => exact mask_of_event rfl next
  | recallDeadlineExpiry position => exact mask_of_event (guarded_mask (by simp)) next
  | commandTransaction bytes trailing => exact execCommandTransaction_mask next
  | fetchTransaction whole _ => exact execFetchTransaction_mask next
  | shortTransaction _ => exact mask_of_next (u := ignoreTransaction s) rfl next
  | configure args => exact mask_of_command (configureBody_port args s) next
  | join args => exact mask_of_command (joinBody_port args s) next
  | leave args => exact mask_of_next (takeCommand_mask _ args (leaveBody_mask args s)) next
  | status args => exact mask_of_command (statusBody_port args s) next
  | readNotice args => exact mask_of_next (takeCommand_mask _ args (readNoticeBody_mask args s)) next
  | readRoster args => exact mask_of_command (readRosterBody_port args s) next
  | subscribe args => exact mask_of_command (subscribeBody_port args s) next
  | unsubscribe args => exact mask_of_command (unsubscribeBody_port args s) next
  | readSubscription args => exact mask_of_command (readSubscriptionBody_port args s) next
  | pop args => exact mask_of_command (popBody_port args s) next
  | peek args => exact mask_of_command (peekBody_port args s) next
  | flush args => exact mask_of_command (flushBody_port args s) next
  | queueStatus args => exact mask_of_command (queueStatusBody_port args s) next
  | readSlot args => exact mask_of_command (readSlotBody_port args s) next
  | listChangedSlots args => exact mask_of_command (listChangedSlotsBody_port args s) next
  | declare args => exact mask_of_command (declareBody_port args s) next
  | writeValue args => exact mask_of_command (writeValueBody_port args s) next
  | withdraw args => exact mask_of_command (withdrawBody_port args s) next
  | readPublication args => exact mask_of_command (readPublicationBody_port args s) next
  | recallCmd args => exact mask_of_command (recallBody_port args s) next
  | epoch args => exact mask_of_command (epochBody_port args s) next
  | snapshotOpen args => exact mask_of_command (snapshotOpenBody_port args s) next
  | snapshotRead args => exact mask_of_command (snapshotReadBody_port args s) next
  | snapshotRelease args => exact mask_of_command (snapshotReleaseBody_port args s) next
  | unknownCommand code args => exact mask_of_next (guarded_mask (takeCommand_mask code args rfl)) next
  | transactionBegin => exact execTransactionBegin_mask next

end Sys2Proof.Machine
end

section
/-! SET ATTENTION MASK, READ NOTICE and the notice record (10.6, 10.7, 12.8): ATTN after each command, what each command does
to the port, and the layout of a record. -/

namespace Sys2Proof.Machine

/-! ## ATTN (R184) -/

/-- Two words share a bit that is set exactly when their conjunction is not 0. -/
theorem and_ne_zero_iff {w : Nat} (x y : BitVec w) :
    (x &&& y) ≠ 0 ↔ ∃ n, n < w ∧ x.getLsbD n = true ∧ y.getLsbD n = true := by
  constructor
  · intro nonzero
    by_contra noBit
    refine nonzero (BitVec.eq_of_getLsbD_eq fun n hn => ?_)
    have notBoth : ¬(x.getLsbD n = true ∧ y.getLsbD n = true) := fun both => noBit ⟨n, hn, both⟩
    simpa using notBoth
  · rintro ⟨n, -, hx, hy⟩ zero
    have bit : (x &&& y).getLsbD n = true := by simp [hx, hy]
    simp [zero] at bit

/-- ATTN outside reset: a notice queued, or a level condition that the mask enables (R184). -/
theorem attn_iff {s : State} (running : s.held = false) :
    attn s = true ↔ s.port.notices ≠ [] ∨
      ∃ n, n < 10 ∧ (rawConditions s).getLsbD n = true ∧ s.port.mask.getLsbD n = true := by
  have queued : (!s.port.notices.isEmpty) = true ↔ s.port.notices ≠ [] := by simp
  rw [attn, running, Bool.not_false, Bool.true_and, Bool.or_eq_true, queued, bne_iff_ne, and_ne_zero_iff]

/-- ATTN once a command has changed the port to `p` alone: the level conditions do not look at the port. -/
theorem attn_answered {s : State} (running : s.held = false) (p : HostPort) (r : Response) :
    attn (answered (s.setPort p) r) = true ↔ p.notices ≠ [] ∨
      ∃ n, n < 10 ∧ (rawConditions s).getLsbD n = true ∧ p.mask.getLsbD n = true :=
  attn_iff (s := answered (s.setPort p) r) running

/-! ## SET ATTENTION MASK (R183) -/

/-- SET ATTENTION MASK in the port is taken by the Host Port (R183, R174). -/
theorem exec_setAttentionMask_of_executes {s : State} {args : List Byte} (h : Executes s 0x06 args) :
    exec (.setAttentionMask args) s =
      .next (answered (setAttentionMaskBody args s).1 (setAttentionMaskBody args s).2) :=
  congrArg Host.Outcome.next (takeCommand_executes (setAttentionMaskBody args) h)

theorem setAttentionMaskBody_of_tenBits {hi lo : Byte} (s : State) (fits : (hi ++ lo).toNat < 1024) :
    setAttentionMaskBody [hi, lo] s = (s.setPort { s.port with mask := (hi ++ lo).setWidth 10 }, plain .ok) :=
  if_pos fits

theorem setAttentionMaskBody_of_above {hi lo : Byte} (s : State) (above : 1024 ≤ (hi ++ lo).toNat) :
    setAttentionMaskBody [hi, lo] s = refuseWith s .badArgument :=
  if_neg (Nat.not_lt.mpr above)

/-- A mask of ten bits is stored whole, and ATTN follows it (R183, R184). -/
theorem setAttentionMask_stores {s : State} {hi lo : Byte} (executes : Executes s 0x06 [hi, lo])
    (fits : (hi ++ lo).toNat < 1024) :
    ∃ t, exec (.setAttentionMask [hi, lo]) s = .next t ∧
      t = answered { s with port := { s.port with mask := t.port.mask } } ⟨.ok, []⟩ ∧
      t.port.mask.toNat = (hi ++ lo).toNat ∧
      (attn t = true ↔ s.port.notices ≠ [] ∨
        ∃ n, n < 10 ∧ (rawConditions s).getLsbD n = true ∧ (hi ++ lo).getLsbD n = true) := by
  have ⟨running, _⟩ := executes
  refine ⟨answered (s.setPort { s.port with mask := (hi ++ lo).setWidth 10 }) ⟨.ok, []⟩, ?next, rfl, ?stored, ?attn⟩
  case next =>
    rw [exec_setAttentionMask_of_executes executes, setAttentionMaskBody_of_tenBits s fits]
    rfl
  case stored =>
    show ((hi ++ lo).setWidth 10).toNat = _
    rw [BitVec.toNat_setWidth, Nat.mod_eq_of_lt fits]
  case attn =>
    refine (attn_answered running _ _).trans
      (or_congr Iff.rfl (exists_congr fun n => and_congr_right fun low => and_congr_right fun _ => ?_))
    show ((hi ++ lo).setWidth 10).getLsbD n = true ↔ _
    rw [BitVec.getLsbD_setWidth, decide_eq_true low, Bool.true_and]

/-! ## The resets (R186, R187) -/

/-- SOFT RESET in the port is taken by the station as a whole (R187, R174). -/
theorem exec_softReset_of_executes {s : State} {args : List Byte} (h : Executes s 0x05 args) :
    exec (.softReset args) s = .next (answered (softResetBody args s).1 (softResetBody args s).2) :=
  congrArg Host.Outcome.next (takeCommand_executes (softResetBody args) h)

/-- A low level of at least 16 periods of CLKIN resets every block (R192). -/
theorem exec_resetPin_of_long {n : Nat} (s : State) (rises : Bool) (long : 16 ≤ n) :
    exec (.resetPin n rises) s = .next (hardReset (s.hold.atPin rises) s) :=
  congrArg Host.Outcome.next (if_pos (Or.inl long))

theorem hardReset_mask (hold : ResetHold) (s : State) : (hardReset hold s).port.mask = 0 := rfl

/-! ## READ NOTICE and the posting of a notice (R180, R181) -/

/-- READ NOTICE in the port is taken by the Host Port (R181, R174). -/
theorem exec_readNotice_of_executes {s : State} {args : List Byte} (h : Executes s 0x07 args) :
    exec (.readNotice args) s = .next (answered (readNoticeBody args s).1 (readNoticeBody args s).2) :=
  congrArg Host.Outcome.next (takeCommand_executes (readNoticeBody args) h)

theorem readNoticeBody_of_nil {s : State} (empty : s.port.notices = []) :
    readNoticeBody [] s = refuseWith s .empty := by
  simp only [readNoticeBody, empty]

theorem readNoticeBody_of_cons {s : State} {n : NoticeRecord} {rest : List NoticeRecord}
    (notices : s.port.notices = n :: rest) :
    readNoticeBody [] s =
      (s.setPort { s.port with notices := rest, lost := if rest = [] then false else s.port.lost },
       okData (n.bytes ++ [byteOf rest.length])) := by
  have lost : (s.port.lost && !rest.isEmpty) = if rest = [] then false else s.port.lost := by
    cases rest <;> simp
  simp only [readNoticeBody, notices, lost]

/-- READ NOTICE removes the oldest record and returns it, and ATTN follows what is left (R181, R184). -/
theorem readNotice_removes {s : State} {n : NoticeRecord} {rest : List NoticeRecord} (executes : Executes s 0x07 [])
    (notices : s.port.notices = n :: rest) :
    ∃ t, exec (.readNotice []) s = .next t ∧
      t = answered { s with port := { s.port with
          notices := rest, lost := if rest = [] then false else s.port.lost } }
        ⟨.ok, n.bytes ++ [byteOf rest.length]⟩ ∧
      (attn t = true ↔ rest ≠ [] ∨
        ∃ n, n < 10 ∧ (rawConditions s).getLsbD n = true ∧ s.port.mask.getLsbD n = true) := by
  have ⟨running, _⟩ := executes
  refine ⟨_, ?next, rfl, ?attn⟩
  case next =>
    rw [exec_readNotice_of_executes executes, readNoticeBody_of_cons notices]
    rfl
  case attn => exact attn_answered running _ _

theorem post_of_room {s : State} (n : Notice) (room : s.port.notices.length < 32) :
    post s n = { s with port := { s.port with
      notices := s.port.notices ++ [{ notice := n, stamp := s.line.clock }] } } :=
  if_pos room

theorem post_of_full {s : State} (n : Notice) (full : 32 ≤ s.port.notices.length) :
    post s n = { s with port := { s.port with lost := true } } :=
  if_neg (Nat.not_lt.mpr full)

/-! ## The notice record (12.8) -/

/-- A notice's record is laid out from its kind code, its three subjects and its stamp. -/
theorem notice_bytes_of_fields {n : Notice} {kind : Byte} {a b c : Nat} {w : Stamp} (fields : n.fields = (kind, a, b, c)) :
    NoticeRecord.bytes ⟨n, w⟩ = noticeRecord kind a b c w := by
  simp only [NoticeRecord.bytes, noticeRecord, fields]
  rfl

/-- Settles O49: the mask commands are `setAttentionMask_stores` and the resets' initial port, `exec_mask` is every other row;
READ NOTICE is `readNotice_removes`; each notice's layout comes from its `Notice.fields`. -/
theorem attentionMaskAndNotices : Obligations.AttentionMaskAndNotices := by
  refine ⟨fun s => ⟨fun hi lo executes => ⟨setAttentionMask_stores executes, fun above => ?refused⟩,
    ⟨_, rfl, hardReset_mask _ s⟩, fun n rises long => ⟨_, exec_resetPin_of_long s rises long, hardReset_mask _ s⟩,
    fun executes => ⟨_, exec_softReset_of_executes executes, rfl⟩,
    fun c t notSet notSoft notPower notPin notEnd => exec_mask notSet notSoft notPower notPin notEnd,
    fun executes => ⟨fun noRecord => ?empty, fun n rest => readNotice_removes executes⟩,
    fun n => ⟨post_of_room n, post_of_full n, rfl, fun ns => rfl⟩⟩, fun w => ?layout⟩
  case refused =>
    rw [exec_setAttentionMask_of_executes executes, setAttentionMaskBody_of_above s above]
    rfl
  case empty =>
    rw [exec_readNotice_of_executes executes, readNoticeBody_of_nil noRecord]
    rfl
  case layout =>
    refine ⟨notice_bytes_of_fields rfl, fun reason => notice_bytes_of_fields ?_, notice_bytes_of_fields rfl,
      fun k => notice_bytes_of_fields ?_, fun st => notice_bytes_of_fields ?_, notice_bytes_of_fields rfl,
      fun k n => notice_bytes_of_fields ?_,
      fun x => ⟨notice_bytes_of_fields rfl, notice_bytes_of_fields rfl, notice_bytes_of_fields rfl,
        notice_bytes_of_fields rfl⟩,
      fun q reason => notice_bytes_of_fields ?_, fun k reason => notice_bytes_of_fields ?_,
      fun topic o => notice_bytes_of_fields ?_,
      fun i x => ⟨notice_bytes_of_fields rfl, notice_bytes_of_fields rfl⟩,
      fun e e' x => ⟨notice_bytes_of_fields rfl, notice_bytes_of_fields rfl, notice_bytes_of_fields rfl,
        notice_bytes_of_fields rfl⟩,
      notice_bytes_of_fields rfl, notice_bytes_of_fields rfl⟩
    · cases reason <;> rfl
    · cases k <;> rfl
    · cases st <;> rfl
    · cases k <;> rfl
    · cases reason <;> rfl
    · cases reason <;> rfl
    · cases o <;> rfl

end Sys2Proof.Machine
end

section
/-! SUPPORT. What a property of states has to survive so that every command keeps it: one clause for each change that the
commands are made of, with what the command has checked before it. The walk through the commands is made once, here. -/

namespace Sys2Proof.Machine

/-! ## The clauses -/

/-- The Line Interface is in use: it receives, drives, measures, or an item is in flight. -/
def State.onLine (s : State) : Prop :=
  s.line.receive ≠ .inactive ∨ s.line.send ≠ .off ∨ s.line.blocked ≠ none ∨ s.access.inFlight ≠ none

/-- The end of the attempt of `f` at the end of its jam, before the leave completes and the booking is settled (R32, R33). -/
def jamOutcome (f : Flight) (s : State) : Posting :=
  let u := (s.setLine s.line.afterJam).setAccess { s.access with inFlight := none }
  if 16 ≤ attemptsOf s f.kind then abandon f.kind u else (ownerCollided f.kind u, [])

theorem jamEnd_eq (f : Flight) (s : State) :
    jamEnd f s = settleBooking ((jamOutcome f s).andThen finishLeaving).done := rfl

/-- An accepted DECLARE at index `i`, before the booking is settled (R118). -/
def declareAt (s : State) (i : PubIndex) (e : PubEntry) : State :=
  if s.session.state = .member then (makePendingNew (s.updPub i fun _ => e) i).updPub i PubEntry.startPeriod
  else s.updPub i fun _ => e

/-- An accepted WITHDRAW of the ACTIVE entry `i` (R120). -/
def withdrawAt (s : State) (i : PubIndex) : State :=
  if (s.pubs.table[i]).inFlight then
    s.updPub i fun e => { e.clearMarks with state := .withdrawing, periodicTimer := none, holdOff := none }
  else removeItem (s.updPub i fun _ => PubEntry.initial) (.update i)

/-- A queue that loses its first `n` records, which return to the pool (R95, R97). -/
def takeRecords (s : State) (q : QueueNo) (n : Nat) : State :=
  let s1 := s.updQueue q fun x => { x with records := x.records.drop n }
  s1.setStore { s1.store with free := s1.store.free + n }

/-- What the silence of a source does to one slot (R109). -/
def silenceSlot (source : Station) (p : Posting) (k : SlotNo) : Posting :=
  if (p.1.store.slots[k]).state = .fresh ∧ (p.1.store.slots[k]).contents.source = source then
    p.andThen fun s => makeStale s k .peerSilent
  else p

theorem staleBySilence_eq_foldl (s : State) (source : Station) :
    staleBySilence s source = (List.finRange 64).foldl (silenceSlot source) (s, []) := rfl

/-- The changes that the commands are made of, each with the conditions under which a command makes it. `P` survives them
all. The end of a frame in reception is treated apart (`endFrame`). -/
structure Kept (P : State → Prop) : Prop where
  hardReset : ∀ s h, P s → P (hardReset h s)
  hold : ∀ (s : State) h, P s → P { s with hold := h }
  softReset : ∀ s, P s → P (softResetBody [] s).1
  tick : ∀ s, P s → P (tick s)
  port : ∀ s p, p.notices = s.port.notices → p.lost = s.port.lost → P s → P (s.setPort p)
  post : ∀ s n, P s → P (post s n)
  readNotice : ∀ s n rest, s.port.notices = n :: rest → P s →
    P (s.setPort { s.port with notices := rest, lost := s.port.lost && !rest.isEmpty })
  line : ∀ s x, s.onLine → (x.receive = s.line.receive ∨ s.line.receive.awaitsGap = true) → P s → P (s.setLine x)
  access : ∀ s a, a.score = s.access.score → a.standing = s.access.standing → a.inFlight = s.access.inFlight → P s →
    P (s.setAccess a)
  rescore : ∀ s n, n ≤ 255 → P s → P (rescore s n).1
  countAttempt : ∀ s k, P s → P (countAttempt s k)
  startAttempt : ∀ s it, s.line.receive = .betweenFrames → s.access.inFlight = none → permission s = true →
    s.pubs.items.head? = some it → P s → P (startAttempt s it)
  jamOutcome : ∀ s f, s.access.inFlight = some f → s.line.send.isJamming = true → P s → P (jamOutcome f s).1
  leaveComplete : ∀ s, s.session.state ≠ .offline → P s → P (leaveComplete s).1
  leaving : ∀ s, s.session.state ≠ .offline → P s →
    P (s.setSession { s.session with state := .leaving, listenWindow := none, presenceTimer := none })
  headerEvent : ∀ s r r' rx, s.line.receive = .inFrame r → r.headerSeen = false → P s → P (headerEvent s r' rx)
  startClaiming : ∀ s, s.session.state = .listening → P s → P (startClaiming s)
  presenceExpiry : ∀ s, s.session.presenceTimer.isSome = true → P s → P (presenceExpiry s)
  silentPeer : ∀ s x, (s.roster[x]).state = .present → P s →
    P (s.updRoster x fun e => { e with state := .silent, deadline := none })
  goStale : ∀ s k reason, (s.store.slots[k]).state = .fresh → P s → P (s.updSlot k fun x => x.goStale reason)
  setLimit : ∀ s k limit, P s → P (s.updSlot k fun x => x.setLimit limit)
  readSlot : ∀ s k, P s → P (s.updSlot k fun x => { x with changed := false })
  requestRecall : ∀ s topic o, P s → P (requestRecall s topic o)
  recallExpiry : ∀ s p, (s.cont.recalls[p]).waits = true → P s → P (recallExpiry p s).1
  recallOrigin : ∀ s p, (s.cont.recalls[p]).state ≠ .free → P s → P (s.updRecall p fun e => { e with origin := .host })
  makeRecall : ∀ s p topic o, recallAt s topic = none → freeRecall s = some p → P s → P (makeRecall s p topic o)
  periodicExpiry : ∀ s i, P s → P (periodicExpiry s i)
  holdOff : ∀ s i, P s → P (s.updPub i fun e => { e with holdOff := none })
  configure : ∀ s args r, s.session.state = .offline → recordOf args = some r → P s →
    P (emptyQueues (s.setSession { s.session with record := some r }))
  join : ∀ s r, s.session.state = .offline → s.session.record = some r → P s → P (joinWith r s)
  sub : ∀ s i f, P s → P (s.updSub i f)
  takeRecords : ∀ s q n, n ≤ (s.store.queues[q]).records.length → P s → P (takeRecords s q n)
  clearOverflow : ∀ s q, P s → P (s.updQueue q fun x => { x with overflow := false, dropped := 0 })
  declare : ∀ s i topic c m period value, (s.pubs.table[i]).state = .free → ownsTopic s topic = false → P s →
    P (declareAt s i (declaredEntry topic c m period value))
  write : ∀ s i value, (s.pubs.table[i]).state = .active → P s → P (writeEntry s i value)
  withdraw : ∀ s i, (s.pubs.table[i]).state = .active → P s → P (withdrawAt s i)
  freeYielded : ∀ s i, (s.pubs.table[i]).state = .yielded → P s → P (s.updPub i fun _ => PubEntry.initial)
  requestEpoch : ∀ s, s.epoch.request = .none → P s → P (placeItem (s.setEpoch { s.epoch with request := .waiting }) .epoch 0)
  openBank : ∀ s b, heldBank s.epoch = none → newestFilled s.epoch = some b → P s →
    P (s.setEpoch { s.epoch with banks := upd s.epoch.banks b fun k => { k with state := .held } })
  releaseBank : ∀ s b, heldBank s.epoch = some b → P s →
    P (s.setEpoch { s.epoch with
      banks := upd s.epoch.banks b fun _ => Bank.initial, latest := markAfterRelease s.epoch b })

/-- `P` survives the end of the frame in reception, whose own echo, when it is compared, ends as it was sent. -/
def KeptAtEnd (P : State → Prop) : Prop :=
  ∀ levels r rx s, s.line.receive = .inFrame r → (r.own = true → comparing s = true → endsAsSent s rx = true) → P s →
    P (endFrame levels r rx s)

/-- The changes that the blocks make at the end of a frame. -/
structure KeptByBlocks (P : State → Prop) : Prop where
  free : ∀ (s : State) n, P s → P { s with free := n }
  post : ∀ s n, P s → P (post s n)
  resetBases : ∀ s, P s → P (resetBases s)
  rescore : ∀ s n, n ≤ 255 → P s → P (rescore s n).1
  releaseFrame : ∀ s, P s → P (releaseFrame s)
  accessAtFrame : ∀ own f s, P s → P (accessAtFrame own f s).1
  sessionAtFrame : ∀ own f s, P s → P (sessionAtFrame own f s).1
  rosterAtFrame : ∀ own f s, P s → P (rosterAtFrame own f s).1
  acceptanceAtFrame : ∀ own headerSeen f s, P s → P (acceptanceAtFrame own headerSeen f s).1
  publicationAtFrame : ∀ own f s, P s → P (publicationAtFrame own f s).1
  continuityAtFrame : ∀ own f s, P s → P (continuityAtFrame own f s).1
  epochAtFrame : ∀ own f s, P s → P (epochAtFrame own f s).1

section
variable {P : State → Prop}

/-! ## Notices, bookings and the score -/

namespace Kept
variable (kept : Kept P)
include kept

theorem postAll {s : State} (ns : List Notice) (h : P s) : P (postAll s ns) := postAll_keeps P kept.post ns s h

theorem done {p : Posting} (h : P p.1) : P p.done := kept.postAll p.2 h

theorem settleBooking {s : State} (h : P s) : P (settleBooking s) := by
  rw [settleBooking_eq]
  exact kept.access s _ rfl rfl rfl h

theorem bookAtCycle {s : State} (h : P s) : P (bookAtCycle s) := by
  rw [bookAtCycle_eq]
  exact kept.access s _ rfl rfl rfl h

theorem raiseScore {s : State} (n : Nat) (h : P s) : P (raiseScore s n).1 :=
  kept.rescore s _ (Nat.min_le_left _ _) h

theorem resetBases {s : State} (h : P s) : P (resetBases s) := kept.access s _ rfl rfl rfl h

/-! ## The line -/

theorem collideAt {s : State} (m : Option Nat) (h : P s) : P (collideAt m s) := by
  unfold Machine.collideAt
  split
  · rename_i f flying
    have jam := kept.line s { s.line with send := .jamming (24 * lineBit s) }
      (.inr (.inr (.inr (by simp [flying])))) (.inl rfl) h
    exact kept.settleBooking (kept.done (kept.raiseScore 8 (kept.countAttempt _ f.kind (kept.resetBases jam))))
  · exact h

theorem lineActivity {s : State} (run idle : Nat) (h : P s) : P (lineActivity run idle s) := by
  unfold Machine.lineActivity
  split
  · exact h
  · split
    · rename_i awaits
      have receives : s.line.receive ≠ .inactive := fun inactive => by simp [inactive, ReceiveCondition.awaitsGap] at awaits
      have noted : ∀ cut, P (noteActivity s run idle cut) := fun cut =>
        kept.line (s.setAccess { s.access with slotTime := none, booking := none }) _ (.inl receives) (.inl rfl)
          (kept.access s _ rfl rfl rfl h)
      dsimp only
      refine kept.collideAt _ ?_
      split
      · exact kept.line _ _ (.inl receives) (.inr awaits) (noted _)
      · exact noted _
    · exact h

theorem impliedMark {s : State} (between : s.line.receive = .betweenFrames) (h : P s) : P (impliedMark s) :=
  kept.lineActivity 6 2 (kept.line s _ (.inl (by simp [between])) (.inl rfl) h)

theorem collision {s : State} (received : List LineLevel) (h : P s) : P (collision received s) := by
  refine kept.collideAt _ ?_
  unfold ownMark
  split
  · rename_i between
    split
    · exact kept.impliedMark between h
    · exact kept.line s _ (.inl (by simp [between])) (.inl rfl) h
  · exact h

theorem gapEnd {s : State} (awaits : s.line.receive.awaitsGap = true) (h : P s) : P (gapEnd s) := by
  have online : s.onLine := .inl fun inactive => by simp [inactive, ReceiveCondition.awaitsGap] at awaits
  exact kept.bookAtCycle (kept.access _ _ rfl rfl rfl (kept.line s _ online (.inr awaits) h))

theorem bookedSlotStart {s : State} (b : Fin 256) (can : slotCanBegin s = true) (h : P s) : P (bookedSlotStart b s) := by
  simp only [slotCanBegin, Bool.and_eq_true, beq_iff_eq, Option.isNone_iff_eq_none] at can
  obtain ⟨⟨⟨-, between⟩, -⟩, noFlight⟩ := can
  unfold Machine.bookedSlotStart
  dsimp only
  split
  · rename_i allowed head
    exact kept.startAttempt _ _ between noFlight allowed head (kept.access s _ rfl rfl rfl h)
  · exact kept.access s _ rfl rfl rfl h

theorem finishLeaving {s : State} (h : P s) : P (finishLeaving s).1 := by
  unfold Machine.finishLeaving
  split
  · rename_i leaving
    exact kept.leaveComplete s (by simp [leaving]) h
  · exact h

theorem blockedLine {s : State} {m : BlockedMeasure} (running : s.line.blocked = some m) (h : P s) :
    P (blockedLine m s) :=
  kept.done (p := Posting.andThen _ _)
    (kept.raiseScore 8 (kept.access _ _ rfl rfl rfl
      (kept.line s _ (.inr (.inr (.inl (by simp [running])))) (.inl rfl) h)))

end Kept

/-! ## The frame in reception -/

theorem collideAt_receive (m : Option Nat) (s : State) : (collideAt m s).line.receive = s.line.receive := by
  unfold collideAt
  split
  · rw [collide_eq]
  · rfl

/-- The frame in reception is in reception in the state that goes with it. -/
theorem openedFrame_receive {s u : State} {r : Reception} (opened : openedFrame s = some (r, u)) :
    u.line.receive = .inFrame r := by
  unfold openedFrame at opened
  split at opened
  · rename_i receiving
    cases opened
    exact receiving
  · dsimp only at opened
    split at opened
    · rename_i receiving
      cases opened
      exact receiving
    all_goals cases opened
  all_goals cases opened

/-- An own frame that is still compared after the mismatches of its end have been called ends as it was sent. -/
theorem endsAsSent_of_comparing {s : State} {r : Reception} {levels : List LineLevel}
    (ended : (r.rx.feed levels).ended = true) (own : r.own = true)
    (compares : comparing (collideAt (endMismatch s r levels) s) = true) :
    endsAsSent (collideAt (endMismatch s r levels) s) (r.rx.feed levels) = true := by
  cases mismatch : endMismatch s r levels with
  | none =>
    rw [mismatch, collideAt_none] at compares
    rw [collideAt_none]
    unfold endMismatch at mismatch
    split at mismatch
    · cases mismatch
    · simpa [own, compares, ended] using mismatch
  | some n =>
    rw [mismatch] at compares
    cases flight : s.access.inFlight with
    | none => simp [collideAt, flight, comparing] at compares
    | some f =>
      rw [collideAt_some flight, collide_eq] at compares
      simp [comparing, SendCondition.isJamming] at compares

namespace Kept
variable (kept : Kept P)
include kept

theorem openedFrame {s u : State} {r : Reception} (opened : openedFrame s = some (r, u)) (h : P s) : P u := by
  unfold Machine.openedFrame at opened
  split at opened
  · cases opened
    exact h
  · rename_i between
    dsimp only at opened
    split at opened
    · cases opened
      exact kept.impliedMark between h
    all_goals cases opened
  all_goals cases opened

theorem headerComplete {s : State} (levels : List LineLevel) (h : P s) : P (headerComplete levels s) := by
  unfold Machine.headerComplete
  split
  · rename_i r u opened
    have collided := kept.collideAt (frameMismatch u r levels) (kept.openedFrame opened h)
    dsimp only
    split
    · rename_i arrived
      simp only [Bool.and_eq_true, Bool.not_eq_true'] at arrived
      exact kept.headerEvent _ r _ _ ((collideAt_receive _ _).trans (openedFrame_receive opened)) arrived.2 collided
    · split
      · exact collided
      · exact h
  · exact h

theorem impliedHeader {s : State} {r : Reception} (levels : List LineLevel) (receiving : s.line.receive = .inFrame r)
    (h : P s) : P (impliedHeader levels s r).1 := by
  unfold Machine.impliedHeader
  split
  · exact h
  · rename_i unseen
    split
    · exact kept.headerEvent s r _ _ receiving (by simpa using unseen) h
    · exact h

theorem frameEnd (atEnd : KeptAtEnd P) {s : State} (levels : List LineLevel) (h : P s) : P (frameEnd levels s) := by
  unfold Machine.frameEnd
  split
  · rename_i r u opened
    have collided := kept.collideAt (endMismatch u r levels) (kept.openedFrame opened h)
    dsimp only
    split
    · rename_i ended
      exact atEnd levels r _ _ ((collideAt_receive _ _).trans (openedFrame_receive opened))
        (endsAsSent_of_comparing ended) collided
    · split
      · exact collided
      · exact h
  · exact h

theorem leaveAfterFrame {s : State} (own : Bool) (o : FrameOutcome) (h : P s) : P (leaveAfterFrame own o s) := by
  unfold Machine.leaveAfterFrame
  split
  · exact kept.done (kept.finishLeaving h)
  · exact h

end Kept

theorem KeptByBlocks.actOnOutcome (blocks : KeptByBlocks P) {s : State} (own headerSeen : Bool) (o : FrameOutcome)
    (h : P s) : P (actOnOutcome own headerSeen o s) := by
  have dropped : ∀ u, P u → P (dropFrame headerSeen u) := fun u hu => by
    unfold dropFrame
    split
    · exact blocks.releaseFrame u hu
    · exact hu
  cases o with
  | broken => exact dropped _ (blocks.resetBases s h)
  | malformed => exact postAll_keeps P blocks.post _ _ (blocks.rescore _ _ (Nat.min_le_left _ _) (dropped s h))
  | checkFailed => exact postAll_keeps P blocks.post _ _ (blocks.rescore _ _ (Nat.min_le_left _ _) (dropped s h))
  | clean f =>
    refine actTogether_keeps P _ (fun act acts u hu => ?_) blocks.post blocks.free s h
    simp only [List.mem_cons, List.not_mem_nil, or_false] at acts
    obtain rfl | rfl | rfl | rfl | rfl | rfl | rfl := acts
    · exact blocks.accessAtFrame own f u hu
    · exact blocks.sessionAtFrame own f u hu
    · exact blocks.rosterAtFrame own f u hu
    · exact blocks.acceptanceAtFrame own headerSeen f u hu
    · exact blocks.publicationAtFrame own f u hu
    · exact blocks.continuityAtFrame own f u hu
    · exact blocks.epochAtFrame own f u hu

/-- What an implied header leaves in reception. -/
theorem impliedHeader_receive {s : State} {r : Reception} (levels : List LineLevel)
    (receiving : s.line.receive = .inFrame r) : ∃ r', (impliedHeader levels s r).1.line.receive = .inFrame r' := by
  unfold impliedHeader
  split
  · exact ⟨r, receiving⟩
  · split
    · exact ⟨_, by rw [headerEvent, matchingWalk, walk_eq]; rfl⟩
    · exact ⟨r, receiving⟩

/-- What holds while the blocks act, from the closing of the reception on, and gives `P` again, is kept at the end of a
frame. -/
theorem KeptByBlocks.atEnd {Q : State → Prop} (blocks : KeptByBlocks Q) (kept : Kept P)
    (closed : ∀ s r rx, s.line.receive = .inFrame r → P s → Q (closeReception s rx)) (back : ∀ s, Q s → P s) :
    KeptAtEnd P := by
  intro levels r rx s receiving _ h
  obtain ⟨r', receiving'⟩ := impliedHeader_receive levels receiving
  exact kept.settleBooking (kept.leaveAfterFrame _ _ (back _ (blocks.actOnOutcome _ _ _
    (closed _ r' rx receiving' (kept.impliedHeader levels receiving h)))))

/-! ## The commands of the host -/

namespace Kept
variable (kept : Kept P)
include kept

theorem takeCommand {s : State} {code : Byte} {args : List Byte} {body : State → State × Response}
    (hb : ∀ s, P s → P (body s).1) (h : P s) : P (takeCommand s code args body) :=
  takeCommand_keeps P code args body hb (fun s _ h => kept.port s _ rfl rfl h) s h

theorem makeStale {s : State} {k : SlotNo} (reason : StaleReason) (fresh : (s.store.slots[k]).state = .fresh) (h : P s) :
    P (makeStale s k reason).1 := by
  have slot := kept.goStale s k reason fresh h
  unfold Machine.makeStale staleRequests
  generalize List.finRange 32 = is
  refine List.foldlRecOn (motive := P) _ _ slot fun u hu i _ => ?_
  dsimp only
  split
  · exact kept.requestRecall u _ _ hu
  · exact hu

theorem staleBySilence {s : State} (source : Station) (h : P s) : P (staleBySilence s source).1 := by
  have one : ∀ (p : Posting) k, P p.1 → P (silenceSlot source p k).1 := fun p k hp => by
    unfold silenceSlot
    split
    · rename_i fresh
      rw [andThen_fst]
      exact kept.makeStale .peerSilent fresh.1 hp
    · exact hp
  have all : ∀ (ks : List SlotNo) (p : Posting), P p.1 → P (ks.foldl (silenceSlot source) p).1 := fun ks => by
    induction ks with
    | nil => exact fun p hp => hp
    | cons k ks ih => exact fun p hp => ih _ (one p k hp)
  rw [staleBySilence_eq_foldl]
  exact all _ (s, []) h

theorem peerFallsSilent {s : State} {x : Station} (present : (s.roster[x]).state = .present) (h : P s) :
    P (peerFallsSilent x s).1 := by
  unfold Machine.peerFallsSilent
  rw [andThen_fst]
  exact kept.staleBySilence x (kept.silentPeer s x present h)

theorem leaveNow {s : State} (online : s.session.state ≠ .offline) (h : P s) : P (leaveNow s) := by
  unfold Machine.leaveNow
  split
  · exact kept.settleBooking (kept.leaving s online h)
  · exact kept.done (kept.leaveComplete s online h)

theorem configureBody (args : List Byte) (s : State) (h : P s) : P (configureBody args s).1 := by
  fun_cases Machine.configureBody args s
  case case4 offline r inRange => exact kept.configure s args r (by simpa using offline) inRange h
  all_goals exact h

theorem joinBody (args : List Byte) (s : State) (h : P s) : P (joinBody args s).1 := by
  fun_cases Machine.joinBody args s
  case case3 offline r recorded => exact kept.join s r (by simpa using offline) recorded h
  all_goals exact h

theorem leaveBody (args : List Byte) (s : State) (h : P s) : P (leaveBody args s).1 := by
  fun_cases Machine.leaveBody args s
  case case3 state | case4 state | case5 state | case6 state => exact kept.leaveNow (by simp [state]) h
  all_goals exact h

theorem softResetBody (args : List Byte) (s : State) (h : P s) : P (softResetBody args s).1 := by
  fun_cases Machine.softResetBody args s
  case case1 => exact kept.softReset s h
  case case2 => exact h

theorem setAttentionMaskBody (args : List Byte) (s : State) (h : P s) : P (setAttentionMaskBody args s).1 := by
  fun_cases Machine.setAttentionMaskBody args s
  case case1 => exact kept.port s _ rfl rfl h
  all_goals exact h

theorem readNoticeBody (args : List Byte) (s : State) (h : P s) : P (readNoticeBody args s).1 := by
  fun_cases Machine.readNoticeBody args s
  case case2 n rest queued => exact kept.readNotice s n rest queued h
  all_goals exact h

theorem subscribeBody (args : List Byte) (s : State) (h : P s) : P (subscribeBody args s).1 := by
  fun_cases Machine.subscribeBody args s
  -- The accepted SUBSCRIBE; every other branch refuses.
  case case3 =>
    have limited : ∀ (u : State) (t : Target) limit, P u → P (handLimit u t limit) := fun u t limit hu => by
      cases t with
      | queue q => exact hu
      | slot k => exact kept.setLimit u k limit hu
    refine kept.settleBooking ?_
    split
    · exact kept.requestRecall _ _ _ (limited _ _ _ (kept.sub s _ _ h))
    · exact limited _ _ _ (kept.sub s _ _ h)
  all_goals exact h

theorem unsubscribeBody (args : List Byte) (s : State) (h : P s) : P (unsubscribeBody args s).1 := by
  fun_cases Machine.unsubscribeBody args s
  case case3 => exact kept.sub s _ _ h
  all_goals exact h

theorem popBody (args : List Byte) (s : State) (h : P s) : P (popBody args s).1 := by
  fun_cases Machine.popBody args s
  case case3 q _ r rest queued s1 =>
    have taken := kept.takeRecords s q 1 (by rw [queued, List.length_cons]; omega) h
    have same : Machine.takeRecords s q 1 =
        s1.setStore { s1.store with free := s1.store.free + 1 } := by
      simp only [Machine.takeRecords, State.updQueue, upd, s1, queued, List.drop_succ_cons, List.drop_zero]
    exact same ▸ taken
  all_goals exact h

theorem flushBody (args : List Byte) (s : State) (h : P s) : P (flushBody args s).1 := by
  fun_cases Machine.flushBody args s
  case case2 q _ n s1 =>
    have taken := kept.takeRecords s q n (Nat.le_refl _) h
    have same : Machine.takeRecords s q n = s1.setStore { s1.store with free := s1.store.free + n } := by
      simp only [Machine.takeRecords, State.updQueue, upd, s1, n, List.drop_length]
    exact same ▸ taken
  all_goals exact h

theorem queueStatusBody (args : List Byte) (s : State) (h : P s) : P (queueStatusBody args s).1 := by
  fun_cases Machine.queueStatusBody args s
  case case1 =>
    split
    · exact kept.clearOverflow s _ h
    · exact h
  all_goals exact h

theorem readSlotBody (args : List Byte) (s : State) (h : P s) : P (readSlotBody args s).1 := by
  fun_cases Machine.readSlotBody args s
  case case2 k _ => exact kept.readSlot s k h
  all_goals exact h

theorem declareBody (args : List Byte) (s : State) (h : P s) : P (declareBody args s).1 := by
  fun_cases Machine.declareBody args s
  -- The accepted DECLARE, in MEMBER and outside it; every other branch refuses.
  case case6 value _ i _ free c m _ _ topic period _ fresh s1 =>
    have declared := kept.declare s i topic c m period value (by simpa using free) (by simpa using fresh) h
    unfold declareAt at declared
    dsimp only
    split
    · rename_i member
      rw [if_pos member] at declared
      exact kept.settleBooking declared
    · rename_i elsewhere
      rw [if_neg elsewhere] at declared
      exact declared
  all_goals exact h

theorem writeValueBody (args : List Byte) (s : State) (h : P s) : P (writeValueBody args s).1 := by
  fun_cases Machine.writeValueBody args s
  case case6 value _ i _ active => exact kept.settleBooking (kept.write s i value active h)
  all_goals exact h

theorem withdrawBody (args : List Byte) (s : State) (h : P s) : P (withdrawBody args s).1 := by
  fun_cases Machine.withdrawBody args s
  case case3 i _ e active => exact kept.withdraw s i active h
  case case5 i _ e yielded => exact kept.freeYielded s i yielded h
  all_goals exact h

theorem recallBody (args : List Byte) (s : State) (h : P s) : P (recallBody args s).1 := by
  fun_cases Machine.recallBody args s
  case case3 p found => exact kept.recallOrigin s p (recallAt_some found).1 h
  case case4 none p free => exact kept.settleBooking (kept.makeRecall s p _ .host none free h)
  all_goals exact h

theorem epochBody (args : List Byte) (s : State) (h : P s) : P (epochBody args s).1 := by
  fun_cases Machine.epochBody args s
  case case2 none => exact kept.settleBooking (kept.requestEpoch s none h)
  all_goals exact h

theorem snapshotOpenBody (args : List Byte) (s : State) (h : P s) : P (snapshotOpenBody args s).1 := by
  fun_cases Machine.snapshotOpenBody args s
  case case3 unheld b filled k => exact kept.openBank s b (by simpa using unheld) filled h
  all_goals exact h

theorem snapshotReleaseBody (args : List Byte) (s : State) (h : P s) : P (snapshotReleaseBody args s).1 := by
  fun_cases Machine.snapshotReleaseBody args s
  case case2 b held => exact kept.releaseBank s b held h
  all_goals exact h

/-- A command whose owner changes nothing but the answer. -/
theorem readOnly {s : State} {code : Byte} {args : List Byte} {body : State → State × Response}
    (same : ∀ s, (body s).1 = s) (h : P s) : P (Machine.takeCommand s code args body) :=
  kept.takeCommand (fun s h => by rw [same]; exact h) h

/-! ## Transactions -/

theorem transactionEnd {s : State} {act : Captured → State → State} (hact : ∀ c, P s → P (act c s)) (h : P s) :
    P (transactionEnd s act) := by
  unfold Machine.transactionEnd
  split
  · exact hact _ h
  all_goals exact kept.port s _ rfl rfl h

theorem fetchEnd {s : State} (whole : Nat) (c : Captured) (h : P s) : P (fetchEnd whole c s) := by
  have shown : P (showStatus s c (fetchOut c whole)) := kept.port s _ rfl rfl h
  unfold Machine.fetchEnd
  dsimp only
  split
  · exact kept.port _ _ rfl rfl shown
  · exact shown

theorem commandEnd {s : State} (bytes : List Byte) (trailing : Nat) (c : Captured) (h : P s) :
    P (commandEnd bytes trailing c s) := by
  have shown : P (showStatus s c (c.status :: List.replicate (bytes.length - 1) 0)) := kept.port s _ rfl rfl h
  unfold Machine.commandEnd
  dsimp only
  split
  · split <;> exact kept.port _ _ rfl rfl shown
  · exact kept.port _ _ rfl rfl shown

/-! ## Every row of the table -/

end Kept

theorem keeps_event {s : State} {act : State → State} (hact : P s → P (act s)) (h : P s) : P (whenRunning s act) := by
  unfold whenRunning
  split
  · exact h
  · exact hact h

/-- An event that acts under a condition alone. -/
theorem keeps_guarded {s u : State} {p : Prop} [Decidable p] (acts : p → P u) (h : P s) : P (if p then u else s) := by
  split
  · exact acts ‹p›
  · exact h

/-! ### The commands that only read -/

theorem statusBody_state (args : List Byte) (s : State) : (statusBody args s).1 = s := by
  fun_cases statusBody args s <;> rfl

theorem readRosterBody_state (args : List Byte) (s : State) : (readRosterBody args s).1 = s := by
  fun_cases readRosterBody args s <;> rfl

theorem readSubscriptionBody_state (args : List Byte) (s : State) : (readSubscriptionBody args s).1 = s := by
  fun_cases readSubscriptionBody args s <;> rfl

theorem peekBody_state (args : List Byte) (s : State) : (peekBody args s).1 = s := by
  fun_cases peekBody args s <;> rfl

theorem listChangedSlotsBody_state (args : List Byte) (s : State) : (listChangedSlotsBody args s).1 = s := by
  fun_cases listChangedSlotsBody args s <;> rfl

theorem readPublicationBody_state (args : List Byte) (s : State) : (readPublicationBody args s).1 = s := by
  fun_cases readPublicationBody args s <;> rfl

theorem snapshotReadBody_state (args : List Byte) (s : State) : (snapshotReadBody args s).1 = s := by
  fun_cases snapshotReadBody args s <;> rfl

/-- Every command is answered with a next state. -/
theorem exec_next (c : Instr) (s : State) : ∃ t, exec c s = .next t := by
  cases c <;> exact ⟨_, rfl⟩

/-- What the clauses say is kept, every command keeps. -/
theorem Kept.exec (kept : Kept P) (atEnd : KeptAtEnd P) {c : Instr} {s t : State} (next : exec c s = .next t) (h : P s) :
    P t := by
  cases c <;> cases next
  case powerOn => exact kept.hardReset s _ h
  case resetPin => exact keeps_guarded (fun _ => kept.hardReset s _ h) h
  case resetEnd =>
    split
    · exact kept.hold s _ h
    · exact keeps_guarded (fun _ => kept.hardReset s _ h) h
  case lineActivity run idle => exact keeps_event (kept.lineActivity run idle) h
  case gapEnd =>
    refine keeps_event (fun h => keeps_guarded (fun can => ?_) h) h
    simp only [gapCanEnd, Bool.and_eq_true] at can
    exact kept.gapEnd can.1.1.1 h
  case slotCycleStart =>
    exact keeps_event (fun h => keeps_guarded (fun _ => kept.bookAtCycle (kept.access s _ rfl rfl rfl h)) h) h
  case bookedSlotStart =>
    refine keeps_event (fun h => ?_) h
    split
    · exact keeps_guarded (fun can => kept.bookedSlotStart _ can h) h
    · exact h
  case sendEnd =>
    refine keeps_event (fun h => ?_) h
    split
    · rename_i sending
      exact kept.line s _ (.inr (.inl (by simp [sending]))) (.inl rfl) h
    all_goals exact h
  case collision received => exact keeps_event (kept.collision received) h
  case jamEnd =>
    refine keeps_event (fun h => ?_) h
    split
    · rename_i n f jamming flying
      rw [jamEnd_eq]
      exact kept.settleBooking (kept.done (p := Posting.andThen _ _) (kept.finishLeaving
        (kept.jamOutcome s f flying (by simp [jamming, SendCondition.isJamming]) h)))
    · exact h
  case blockedLineEvent =>
    refine keeps_event (fun h => ?_) h
    split
    · rename_i m running
      split
      · exact h
      · exact kept.blockedLine running h
    · exact h
  case headerComplete levels => exact keeps_event (kept.headerComplete levels) h
  case frameEnd levels => exact keeps_event (kept.frameEnd atEnd levels) h
  case listenWindowExpiry =>
    exact keeps_event (fun h => keeps_guarded (fun due => kept.settleBooking (kept.startClaiming s due.1 h)) h) h
  case presenceTimerExpiry =>
    exact keeps_event (fun h => keeps_guarded (fun due => kept.settleBooking (kept.presenceExpiry s due h)) h) h
  case silenceDeadlineExpiry x =>
    exact keeps_event (fun h => keeps_guarded (fun due => kept.settleBooking
      (kept.done (kept.peerFallsSilent due.1 h))) h) h
  case freshnessDeadlineExpiry k =>
    exact keeps_event (fun h => keeps_guarded (fun due => kept.settleBooking
      (kept.done (kept.makeStale .freshness due.1 h))) h) h
  case periodicTimerExpiry i =>
    exact keeps_event (fun h => keeps_guarded (fun _ => kept.settleBooking (kept.periodicExpiry s i h)) h) h
  case holdOffExpiry i => exact keeps_event (kept.holdOff s i) h
  case recallDeadlineExpiry p =>
    exact keeps_event (fun h => keeps_guarded (fun waits => kept.settleBooking
      (kept.done (kept.recallExpiry s p waits h))) h) h
  case commandTransaction bytes trailing =>
    split
    · exact kept.port s _ rfl rfl h
    · split
      · exact kept.transactionEnd (fun c => kept.fetchEnd _ c) h
      · exact kept.transactionEnd (fun c => kept.commandEnd _ trailing c) h
  case fetchTransaction whole _ =>
    split
    · exact kept.port s _ rfl rfl h
    · exact kept.transactionEnd (fun c => kept.fetchEnd whole c) h
  case shortTransaction => exact kept.port s _ rfl rfl h
  case configure args => exact kept.takeCommand (kept.configureBody args) h
  case join args => exact kept.takeCommand (kept.joinBody args) h
  case leave args => exact kept.takeCommand (kept.leaveBody args) h
  case status args => exact kept.readOnly (statusBody_state args) h
  case softReset args => exact kept.takeCommand (kept.softResetBody args) h
  case setAttentionMask args => exact kept.takeCommand (kept.setAttentionMaskBody args) h
  case readNotice args => exact kept.takeCommand (kept.readNoticeBody args) h
  case readRoster args => exact kept.readOnly (readRosterBody_state args) h
  case subscribe args => exact kept.takeCommand (kept.subscribeBody args) h
  case unsubscribe args => exact kept.takeCommand (kept.unsubscribeBody args) h
  case readSubscription args => exact kept.readOnly (readSubscriptionBody_state args) h
  case pop args => exact kept.takeCommand (kept.popBody args) h
  case peek args => exact kept.readOnly (peekBody_state args) h
  case flush args => exact kept.takeCommand (kept.flushBody args) h
  case queueStatus args => exact kept.takeCommand (kept.queueStatusBody args) h
  case readSlot args => exact kept.takeCommand (kept.readSlotBody args) h
  case listChangedSlots args => exact kept.readOnly (listChangedSlotsBody_state args) h
  case declare args => exact kept.takeCommand (kept.declareBody args) h
  case writeValue args => exact kept.takeCommand (kept.writeValueBody args) h
  case withdraw args => exact kept.takeCommand (kept.withdrawBody args) h
  case readPublication args => exact kept.readOnly (readPublicationBody_state args) h
  case recallCmd args => exact kept.takeCommand (kept.recallBody args) h
  case epoch args => exact kept.takeCommand (kept.epochBody args) h
  case snapshotOpen args => exact kept.takeCommand (kept.snapshotOpenBody args) h
  case snapshotRead args => exact kept.readOnly (snapshotReadBody_state args) h
  case snapshotRelease args => exact kept.takeCommand (kept.snapshotReleaseBody args) h
  case unknownCommand code args => exact keeps_guarded (fun _ => kept.readOnly (fun _ => rfl) h) h
  case transactionBegin =>
    split
    · exact kept.port s _ rfl rfl h
    all_goals exact h

/-- A step is the command at the front of the queue, or idling. -/
theorem step_cases {s t : State} (next : step s = .next t) :
    (∃ c rest, s.pending = c :: rest ∧ exec c (s.setPending rest) = .next t) ∨ (s.pending = [] ∧ t = idle s) := by
  unfold step at next
  split at next
  · rename_i c rest queued
    exact .inl ⟨c, rest, queued, next⟩
  · rename_i empty
    cases next
    exact .inr ⟨empty, rfl⟩

/-- What the clauses say is kept, and neither the queue nor the count of free choices touches, every step keeps. -/
theorem Kept.step (kept : Kept P) (atEnd : KeptAtEnd P)
    (queue : ∀ (s : State) q n, P s → P { s with pending := q, free := n }) {s t : State} (next : step s = .next t)
    (h : P s) : P t := by
  obtain ⟨c, rest, -, next⟩ | ⟨-, rfl⟩ := step_cases next
  · exact kept.exec atEnd next (queue s rest s.free h)
  · obtain same | same | ⟨c, -, same⟩ := idle_cases s
    · rw [same]
      exact kept.tick s h
    · rw [same, holdTick_eq]
      exact kept.hold s _ h
    · rw [same]
      exact queue s [c] (s.free + 1) h

end
end Sys2Proof.Machine
end

section
/-! The invariants of single blocks (R34, R36, R103, R104, R118, R133, R140, R145, R155, R156, R179, R180): what each change of
the station leaves of them, and the steps of the whole part. -/

namespace Sys2Proof.Machine

/-! ## At reset -/

theorem initial_scoreFits : AccessController.initial.scoreFits := by
  simp [AccessController.scoreFits, AccessController.initial]

theorem initial_noticesFit : HostPort.initial.noticesFit := by simp [HostPort.noticesFit, HostPort.initial]

theorem initial_trackerFits : ContinuityUnit.initial.trackerFits := by
  simp [ContinuityUnit.trackerFits, ContinuityUnit.initial]

theorem initial_recallsFit : ContinuityUnit.initial.recallsFit := by
  simp [ContinuityUnit.recallsFit, ContinuityUnit.initial, RecallEntry.initial]

theorem initial_banksFit : EpochUnit.initial.banksFit := by
  simp [EpochUnit.banksFit, EpochUnit.initial, Bank.initial]

theorem initial_slotFits : Slot.initial.fits := by simp [Slot.fits, Slot.initial]

theorem initial_slotsFit : MessageStore.initial.slotsFit := fun k => by
  simpa [MessageStore.initial] using initial_slotFits

theorem initial_topicsDiffer : PublicationUnit.initial.topicsDiffer := by
  simp [PublicationUnit.topicsDiffer, PublicationUnit.initial, PubEntry.initial]

theorem initial_ordered : PublicationUnit.initial.ordered := by
  simp [PublicationUnit.ordered, PublicationUnit.initial]

/-! ## One block at a time -/

/-- Entries that keep their topic, and are FREE where they were, stay apart in their topics. -/
theorem topicsDiffer_of_kept {p q : PublicationUnit}
    (kept : ∀ i : PubIndex, (q.table[i]).state ≠ .free →
      (p.table[i]).state ≠ .free ∧ (q.table[i]).topic = (p.table[i]).topic) (h : p.topicsDiffer) : q.topicsDiffer := by
  intro i j hi hj same
  obtain ⟨hi, ti⟩ := kept i hi
  obtain ⟨hj, tj⟩ := kept j hj
  exact h i j hi hj (by rw [← ti, ← tj, same])

theorem topicsDiffer_upd {p : PublicationUnit} {i : PubIndex} {f : PubEntry → PubEntry}
    (kept : (f p.table[i]).state ≠ .free →
      (p.table[i]).state ≠ .free ∧ (f p.table[i]).topic = (p.table[i]).topic) (h : p.topicsDiffer) :
    PublicationUnit.topicsDiffer { p with table := upd p.table i f } := by
  refine topicsDiffer_of_kept (fun j => ?_) h
  dsimp only
  rw [upd_getElem]
  split
  · rename_i same
    exact same ▸ kept
  · exact fun hj => ⟨hj, rfl⟩

/-- A new topic that no other entry holds. -/
theorem topicsDiffer_new {p : PublicationUnit} {i : PubIndex} {e : PubEntry}
    (fresh : ∀ j : PubIndex, (p.table[j]).state ≠ .free → (p.table[j]).topic ≠ e.topic) (h : p.topicsDiffer) :
    PublicationUnit.topicsDiffer { p with table := upd p.table i fun _ => e } := by
  intro j k hj hk same
  dsimp only at hj hk same
  by_cases ij : i = j <;> by_cases ik : i = k
  · exact ij.symm.trans ik
  · subst ij
    rw [upd_getElem_self, upd_getElem_of_ne _ _ ik] at same
    rw [upd_getElem_of_ne _ _ ik] at hk
    exact absurd same.symm (fresh k hk)
  · subst ik
    rw [upd_getElem_self, upd_getElem_of_ne _ _ ij] at same
    rw [upd_getElem_of_ne _ _ ij] at hj
    exact absurd same (fresh j hj)
  · rw [upd_getElem_of_ne _ _ ij] at hj same
    rw [upd_getElem_of_ne _ _ ik] at hk same
    exact h j k hj hk same

/-- A new item, placed later than all, keeps the order. -/
theorem insertItem_ordered {it : Item} {l : List Item}
    (h : l.Pairwise fun a b => a.cls < b.cls ∨ (a.cls = b.cls ∧ a.placed < b.placed))
    (later : ∀ x ∈ l, x.placed < it.placed) :
    (insertItem it l).Pairwise fun a b => a.cls < b.cls ∨ (a.cls = b.cls ∧ a.placed < b.placed) := by
  induction l with
  | nil => simp [insertItem]
  | cons x xs ih =>
    obtain ⟨ahead, rest⟩ := List.pairwise_cons.mp h
    unfold insertItem
    split
    · rename_i urgent
      refine List.pairwise_cons.mpr ⟨fun y hy => .inl ?_, h⟩
      obtain rfl | hy := List.mem_cons.mp hy
      · exact urgent
      · rcases ahead y hy with lt | ⟨eq, -⟩
        · exact lt_trans urgent lt
        · exact eq ▸ urgent
    · rename_i behind
      refine List.pairwise_cons.mpr ⟨fun y hy => ?_, ih rest fun y hy => later y (List.mem_cons_of_mem _ hy)⟩
      obtain rfl | hy := mem_insertItem.mp hy
      · rcases lt_or_eq_of_le (not_lt.mp behind) with lt | eq
        · exact .inl lt
        · exact .inr ⟨eq, later x List.mem_cons_self⟩
      · exact ahead y hy

theorem ordered_place {p : PublicationUnit} (kind : ItemKind) (cls : FrameClass) (attempts : Nat) (h : p.ordered) :
    PublicationUnit.ordered { p with
      items := insertItem { kind := kind, cls := cls, attempts := attempts, placed := p.placements } p.items,
      placements := p.placements + 1 } := by
  refine ⟨insertItem_ordered h.1 h.2, fun it hit => ?_⟩
  obtain rfl | hit := mem_insertItem.mp hit
  · exact Nat.lt_succ_self _
  · exact Nat.lt_succ_of_lt (h.2 it hit)

theorem ordered_sublist {p q : PublicationUnit} (items : q.items.Sublist p.items) (placed : q.placements = p.placements)
    (h : p.ordered) : q.ordered :=
  ⟨h.1.sublist items, fun it hit => placed ▸ h.2 it (items.subset hit)⟩

/-- Entries that keep their topic, and are FREE only with their initial values, fit as before. -/
theorem recallsFit_upd {c : ContinuityUnit} {p : RecallPos} {f : RecallEntry → RecallEntry}
    (kept : (f c.recalls[p]).state ≠ .free →
      (c.recalls[p]).state ≠ .free ∧ (f c.recalls[p]).topic = (c.recalls[p]).topic)
    (freed : (f c.recalls[p]).state = .free → f c.recalls[p] = RecallEntry.initial) (h : c.recallsFit) :
    ContinuityUnit.recallsFit { c with recalls := upd c.recalls p f } := by
  have entry : ∀ q : RecallPos, ((upd c.recalls p f)[q]).state ≠ .free →
      (c.recalls[q]).state ≠ .free ∧ ((upd c.recalls p f)[q]).topic = (c.recalls[q]).topic := fun q => by
    rw [upd_getElem]
    split
    · rename_i same
      exact same ▸ kept
    · exact fun hq => ⟨hq, rfl⟩
  refine ⟨fun q r hq hr same => ?_, fun q hq => ?_⟩
  · obtain ⟨hq, tq⟩ := entry q hq
    obtain ⟨hr, tr⟩ := entry r hr
    exact h.1 q r hq hr (by rw [← tq, ← tr]; exact same)
  · dsimp only at hq ⊢
    rw [upd_getElem] at hq ⊢
    split
    · rename_i same
      subst same
      rw [if_pos rfl] at hq
      exact freed hq
    · rename_i other
      rw [if_neg other] at hq
      exact h.2 q hq

/-- A new entry for a topic that no other entry has. -/
theorem recallsFit_new {c : ContinuityUnit} {p : RecallPos} {e : RecallEntry} (busy : e.state ≠ .free)
    (fresh : ∀ q : RecallPos, (c.recalls[q]).state ≠ .free → (c.recalls[q]).topic ≠ e.topic) (h : c.recallsFit) :
    ContinuityUnit.recallsFit { c with recalls := upd c.recalls p fun _ => e } := by
  refine ⟨fun q r hq hr same => ?_, fun q hq => ?_⟩
  · dsimp only at hq hr same
    by_cases pq : p = q <;> by_cases pr : p = r
    · exact pq.symm.trans pr
    · subst pq
      rw [upd_getElem_self, upd_getElem_of_ne _ _ pr] at same
      rw [upd_getElem_of_ne _ _ pr] at hr
      exact absurd same.symm (fresh r hr)
    · subst pr
      rw [upd_getElem_self, upd_getElem_of_ne _ _ pq] at same
      rw [upd_getElem_of_ne _ _ pq] at hq
      exact absurd same (fresh q hq)
    · rw [upd_getElem_of_ne _ _ pq] at hq same
      rw [upd_getElem_of_ne _ _ pr] at hr same
      exact h.1 q r hq hr same
  · dsimp only at hq ⊢
    rw [upd_getElem] at hq ⊢
    split at hq
    · exact absurd hq busy
    · rename_i other
      rw [if_neg other]
      exact h.2 q hq

/-- The tracker keeps its bound and its keys apart when a frame is taken into it (R142). -/
theorem trackFrame_fits {c : ContinuityUnit} (x : Station) (topic : Topic) (seq : SeqNo) (first : Bool) (stamp : Stamp)
    (h : c.trackerFits) :
    ContinuityUnit.trackerFits { c with
      tracker := trackFrame c.tracker x topic seq stamp (classify c.tracker x topic seq first) } := by
  obtain ⟨bound, apart⟩ := h
  have moved : ContinuityUnit.trackerFits { c with
      tracker := (c.tracker.filter fun e => !e.hasKey x topic) ++
        [{ source := x, topic := topic, last := seq, heard := stamp }] } ∨
      c.tracker.find? (fun e => e.hasKey x topic) = none := by
    by_cases known : ∃ e ∈ c.tracker, e.hasKey x topic = true
    · left
      obtain ⟨e, he, key⟩ := known
      refine ⟨?_, ?_⟩
      · have shorter : (c.tracker.filter fun e => !e.hasKey x topic).length < c.tracker.length :=
          List.length_filter_lt_length_iff_exists.mpr ⟨e, he, by simp [key]⟩
        simp only [List.length_append, List.length_singleton]
        omega
      · refine List.pairwise_append.mpr ⟨apart.sublist List.filter_sublist, List.pairwise_singleton _ _, ?_⟩
        intro a ha b hb
        obtain rfl := List.mem_singleton.mp hb
        have other := (List.mem_filter.mp ha).2
        simp only [TrackEntry.hasKey, Bool.not_eq_true', Bool.and_eq_false_iff, beq_eq_false_iff_ne] at other
        rintro ⟨hs, ht⟩
        exact other.elim (fun n => n hs) (fun n => n ht)
    · right
      exact List.find?_eq_none.mpr fun e he key => known ⟨e, he, key⟩
  have entered : c.tracker.find? (fun e => e.hasKey x topic) = none → ContinuityUnit.trackerFits { c with
      tracker := (if 48 ≤ c.tracker.length then c.tracker.drop 1 else c.tracker) ++
        [{ source := x, topic := topic, last := seq, heard := stamp }] } := by
    intro none
    refine ⟨?_, List.pairwise_append.mpr ⟨?_, List.pairwise_singleton _ _, ?_⟩⟩
    · simp only [List.length_append, List.length_singleton]
      split
      · rw [List.length_drop]
        omega
      · omega
    · split
      · exact apart.sublist (List.drop_sublist _ _)
      · exact apart
    · intro a ha b hb
      obtain rfl := List.mem_singleton.mp hb
      have ha : a ∈ c.tracker := by
        split at ha
        · exact List.mem_of_mem_drop ha
        · exact ha
      have other := List.find?_eq_none.mp none a ha
      simpa [TrackEntry.hasKey] using other
  unfold classify
  split
  · rename_i none
    exact entered none
  · rename_i e found
    have moved := moved.resolve_right (by simp [found])
    split
    · exact moved
    · dsimp only
      split
      · exact moved
      · split
        · exact moved
        · split
          · exact moved
          · exact ⟨bound, apart⟩

/-- A slot that is delivered to holds contents, and its deadline fits its limit (R106). -/
theorem limitDeadline_isSome (limit : Nat) : (limitDeadline limit).isSome = true ↔ 0 < limit := by
  unfold limitDeadline millis
  split <;> simp <;> omega

theorem Slot.deliver_fits (k : Slot) (c : Contents) : (k.deliver c).fits := by
  simp [Slot.fits, Slot.deliver, limitDeadline_isSome]

theorem Slot.refresh_fits {k : Slot} (h : k.fits) : k.refresh.fits := by
  unfold Slot.refresh
  split
  · exact h
  all_goals simp [Slot.fits, limitDeadline_isSome]

theorem Slot.setLimit_fits {k : Slot} (limit : Nat) (h : k.fits) : (k.setLimit limit).fits := by
  obtain ⟨empty, reason, deadline⟩ := h
  unfold Slot.setLimit
  split <;> rename_i state <;> simp_all [Slot.fits, limitDeadline_isSome]

theorem Slot.goStale_fits {k : Slot} (r : StaleReason) : (k.goStale r).fits := by simp [Slot.fits, Slot.goStale]

theorem slotsFit_upd {m : MessageStore} {k : SlotNo} {f : Slot → Slot} (hf : (m.slots[k]).fits → (f m.slots[k]).fits)
    (h : m.slotsFit) : MessageStore.slotsFit { m with slots := upd m.slots k f } := by
  intro j
  dsimp only
  rw [upd_getElem]
  split
  · rename_i same
    exact same ▸ hf (h k)
  · exact h j

/-- At most one bank is HELD: no two are. -/
theorem notBothHeld_iff (banks : Vector Bank 2) :
    ¬((banks[0]).state = .held ∧ (banks[1]).state = .held) ↔
      ∀ a b : Fin 2, a ≠ b → ¬((banks[a]).state = .held ∧ (banks[b]).state = .held) := by
  simp only [Fin.forall_fin_two]
  simp
  tauto

/-- A bank replaced, with the mark that goes with it. -/
theorem banksFit_upd {u : EpochUnit} {b : Fin 2} {f : Bank → Bank} {mark : Option (Fin 2)}
    (held : (f u.banks[b]).state = .held → ∀ c : Fin 2, c ≠ b → (u.banks[c]).state ≠ .held)
    (empty : (f u.banks[b]).state = .empty → f u.banks[b] = Bank.initial)
    (marked : ∀ c : Fin 2, mark = some c → ((upd u.banks b f)[c]).state ≠ .empty)
    (unmarked : mark = none → ∀ c : Fin 2, ((upd u.banks b f)[c]).state = .empty) (h : u.banksFit) :
    EpochUnit.banksFit { u with banks := upd u.banks b f, latest := mark } := by
  obtain ⟨oneHeld, initial, -, -⟩ := h
  refine ⟨(notBothHeld_iff _).mpr fun a c ac both => ?_, fun c hc => ?_, marked, unmarked⟩
  · dsimp only at both
    by_cases ba : b = a <;> by_cases bc : b = c
    · exact ac (ba.symm.trans bc)
    · subst ba
      rw [upd_getElem_self, upd_getElem_of_ne _ _ bc] at both
      exact held both.1 c (Ne.symm bc) both.2
    · subst bc
      rw [upd_getElem_self, upd_getElem_of_ne _ _ ba] at both
      exact held both.2 a (Ne.symm ba) both.1
    · rw [upd_getElem_of_ne _ _ ba, upd_getElem_of_ne _ _ bc] at both
      exact (notBothHeld_iff _).mp oneHeld a c ac both
  · dsimp only at hc ⊢
    rw [upd_getElem] at hc ⊢
    split
    · rename_i same
      subst same
      rw [if_pos rfl] at hc
      exact empty hc
    · rename_i other
      rw [if_neg other] at hc
      exact initial c hc

/-- A capture leaves its own bank FILLED and marked (R161). -/
theorem captureInto_banksFit (s : State) (e : SeqNo) (x : Station) (h : s.epoch.banksFit) :
    (captureInto s e x).1.epoch.banksFit :=
  banksFit_upd (u := { s.epoch with lastSeen := some e }) (mark := some (chooseBank s.epoch)) nofun nofun
    (fun c hc => by cases hc; rw [upd_getElem_self]; exact nofun) nofun h

theorem newestFilled_filled {u : EpochUnit} {b : Fin 2} (found : newestFilled u = some b) :
    (u.banks[b]).state = .filled := by
  unfold newestFilled at found
  split at found
  · split at found
    · cases found
      assumption
    · simpa using tabFind_some found
  · simpa using tabFind_some found

theorem heldBank_none {u : EpochUnit} (none : heldBank u = none) (c : Fin 2) : (u.banks[c]).state ≠ .held := by
  simpa using tabFind_none none c

theorem heldBank_some {u : EpochUnit} {b : Fin 2} (found : heldBank u = some b) : (u.banks[b]).state = .held := by
  simpa using tabFind_some found

theorem openBank_banksFit {u : EpochUnit} {b : Fin 2} (unheld : heldBank u = none) (found : newestFilled u = some b)
    (h : u.banksFit) :
    EpochUnit.banksFit { u with banks := upd u.banks b fun k => { k with state := .held } } := by
  refine banksFit_upd (fun _ c _ => heldBank_none unheld c) nofun (fun c marked => ?_) (fun unmarked => ?_) h
  · rw [upd_getElem]
    split
    · exact nofun
    · exact h.2.2.1 c marked
  · have := h.2.2.2 unmarked b
    rw [newestFilled_filled found] at this
    cases this

theorem otherBank_ne : ∀ b : Fin 2, b ≠ otherBank b := by decide

theorem eq_otherBank : ∀ b c : Fin 2, c ≠ b → c = otherBank b := by decide

/-- The released bank is EMPTY, and the mark names the other one where that is FILLED (R155, R165). -/
theorem releaseBank_banksFit {u : EpochUnit} {b : Fin 2} (found : heldBank u = some b) (h : u.banksFit) :
    EpochUnit.banksFit { u with banks := upd u.banks b fun _ => Bank.initial, latest := markAfterRelease u b } := by
  refine banksFit_upd nofun (fun _ => rfl) (fun c marked => ?_) (fun unmarked c => ?_) h
  · unfold markAfterRelease at marked
    rw [upd_getElem]
    split at marked
    · split at marked
      · rename_i filled
        cases marked
        rw [if_neg (otherBank_ne b), filled]
        exact nofun
      · cases marked
    · rename_i elsewhere
      rw [if_neg (fun same : b = c => elsewhere (same ▸ marked))]
      exact h.2.2.1 c marked
  · unfold markAfterRelease at unmarked
    rw [upd_getElem]
    split
    · rfl
    · rename_i distinct
      split at unmarked
      · split at unmarked
        · cases unmarked
        · rename_i unfilled
          have unfilled : (u.banks[c]).state ≠ .filled := by
            rw [eq_otherBank b c (Ne.symm distinct)]
            exact unfilled
          have unheld := (notBothHeld_iff _).mp h.1 b c distinct
          cases state : (u.banks[c]).state with
          | empty => rfl
          | filled => exact absurd state unfilled
          | held => exact absurd ⟨heldBank_some found, state⟩ unheld
      · exact h.2.2.2 unmarked c

end Sys2Proof.Machine
end

section
/-! What each change of the station leaves of the invariants of single blocks, and the steps of the whole part. -/

namespace Sys2Proof.Machine

/-- Each block of `t` fits where the block of `s` does. A block that a change does not touch is the same term on both sides,
so a change names only the blocks that it does touch. -/
structure FitsAfter (s t : State) : Prop where
  pending : t.pending = s.pending := by rfl
  score : s.access.scoreFits → t.access.scoreFits := by exact id
  notices : s.port.noticesFit → t.port.noticesFit := by exact id
  tracker : s.cont.trackerFits → t.cont.trackerFits := by exact id
  recalls : s.cont.recallsFit → t.cont.recallsFit := by exact id
  banks : s.epoch.banksFit → t.epoch.banksFit := by exact id
  slots : s.store.slotsFit → t.store.slotsFit := by exact id
  topics : s.pubs.topicsDiffer → t.pubs.topicsDiffer := by exact id
  ordered : s.pubs.ordered → t.pubs.ordered := by exact id

theorem FitsAfter.refl (s : State) : FitsAfter s s := {}

theorem FitsAfter.trans {s t u : State} (h : FitsAfter s t) (h' : FitsAfter t u) : FitsAfter s u where
  pending := h'.pending.trans h.pending
  score := h'.score ∘ h.score
  notices := h'.notices ∘ h.notices
  tracker := h'.tracker ∘ h.tracker
  recalls := h'.recalls ∘ h.recalls
  banks := h'.banks ∘ h.banks
  slots := h'.slots ∘ h.slots
  topics := h'.topics ∘ h.topics
  ordered := h'.ordered ∘ h.ordered

/-! ## Blocks without an invariant of their own -/

theorem setLine_fitsAfter (s : State) (x : LineInterface) : FitsAfter s (s.setLine x) := {}
theorem setSession_fitsAfter (s : State) (x : SessionController) : FitsAfter s (s.setSession x) := {}
theorem setRoster_fitsAfter (s : State) (x : Vector RosterEntry 32) : FitsAfter s (s.setRoster x) := {}
theorem setAccept_fitsAfter (s : State) (x : AcceptanceUnit) : FitsAfter s (s.setAccept x) := {}

/-- A change of the Access Controller that leaves score and standing. -/
theorem setAccess_fitsAfter (s : State) {x : AccessController} (score : x.score = s.access.score)
    (standing : x.standing = s.access.standing) : FitsAfter s (s.setAccess x) where
  score := fun h => by
    unfold AccessController.scoreFits
    rw [setAccess_access, score, standing]
    exact h

/-- A change of the Epoch Unit that leaves the banks and the mark. -/
theorem setEpoch_fitsAfter (s : State) {x : EpochUnit} (banks : x.banks = s.epoch.banks)
    (latest : x.latest = s.epoch.latest) : FitsAfter s (s.setEpoch x) where
  banks := fun h => by
    unfold EpochUnit.banksFit
    rw [setEpoch_epoch, banks, latest]
    exact h

theorem setPubs_fitsAfter (s : State) {x : PublicationUnit} (topics : s.pubs.topicsDiffer → x.topicsDiffer)
    (ordered : s.pubs.ordered → x.ordered) : FitsAfter s (s.setPubs x) :=
  { topics := topics, ordered := ordered }

theorem setStore_fitsAfter (s : State) {x : MessageStore} (slots : s.store.slotsFit → x.slotsFit) :
    FitsAfter s (s.setStore x) :=
  { slots := slots }

/-! ## Publications and the transmit list -/

theorem updPub_fitsAfter (s : State) (i : PubIndex) {f : PubEntry → PubEntry}
    (kept : (f s.pubs.table[i]).state ≠ .free →
      (s.pubs.table[i]).state ≠ .free ∧ (f s.pubs.table[i]).topic = (s.pubs.table[i]).topic) :
    FitsAfter s (s.updPub i f) :=
  { topics := topicsDiffer_upd kept }

/-- A change of an entry that leaves its state and its topic. -/
theorem updPub_fitsAfter_of_same (s : State) (i : PubIndex) {f : PubEntry → PubEntry}
    (state : ∀ e, (f e).state = e.state) (topic : ∀ e, (f e).topic = e.topic) : FitsAfter s (s.updPub i f) :=
  updPub_fitsAfter s i fun h => ⟨state _ ▸ h, topic _⟩

theorem placeWith_fitsAfter (s : State) (kind : ItemKind) (cls : FrameClass) (attempts : Nat) :
    FitsAfter s (placeWith s kind cls attempts) :=
  { ordered := ordered_place kind cls attempts }

theorem placeItem_fitsAfter (s : State) (kind : ItemKind) (cls : FrameClass) : FitsAfter s (placeItem s kind cls) :=
  placeWith_fitsAfter s kind cls 0

theorem removeItem_fitsAfter (s : State) (kind : ItemKind) : FitsAfter s (removeItem s kind) :=
  { ordered := ordered_sublist List.filter_sublist rfl }

theorem makePendingNew_fitsAfter (s : State) (i : PubIndex) : FitsAfter s (makePendingNew s i) := by
  have pending : FitsAfter s (s.updPub i fun e => { e with item := some .newValue }) :=
    updPub_fitsAfter_of_same s i (fun _ => rfl) fun _ => rfl
  unfold makePendingNew
  dsimp only
  split
  · split
    · exact pending.trans (placeItem_fitsAfter _ _ _)
    · exact pending
    · exact .refl s
  · exact .refl s

theorem makePendingRepeat_fitsAfter (s : State) (i : PubIndex) : FitsAfter s (makePendingRepeat s i) :=
  FitsAfter.trans (t := s.updPub i fun e => { e with item := some .repeatValue })
    (updPub_fitsAfter_of_same s i (fun _ => rfl) fun _ => rfl) (placeItem_fitsAfter _ _ _)

theorem PubEntry.startPeriod_state (e : PubEntry) : e.startPeriod.state = e.state := by
  unfold PubEntry.startPeriod
  split <;> rfl

theorem PubEntry.startPeriod_topic (e : PubEntry) : e.startPeriod.topic = e.topic := by
  unfold PubEntry.startPeriod
  split <;> rfl

theorem startPeriod_fitsAfter (s : State) (i : PubIndex) : FitsAfter s (s.updPub i PubEntry.startPeriod) :=
  updPub_fitsAfter_of_same s i PubEntry.startPeriod_state PubEntry.startPeriod_topic

theorem freePub_fitsAfter (s : State) (i : PubIndex) : FitsAfter s (s.updPub i fun _ => PubEntry.initial) :=
  updPub_fitsAfter s i fun h => absurd rfl h

theorem announce_fitsAfter (s : State) : FitsAfter s (announce s) := by
  refine List.foldlRecOn (motive := FitsAfter s) _ _ (.refl s) fun u hu i _ => hu.trans ?_
  unfold announceEntry
  split
  · refine .trans (.trans ?_ (makePendingNew_fitsAfter _ i)) (startPeriod_fitsAfter _ i)
    exact updPub_fitsAfter_of_same u i (fun _ => rfl) fun _ => rfl
  · exact .refl u

theorem PubEntry.cleanEnd_state (e : PubEntry) (b : Bool) : (e.cleanEnd b).state = e.state := by
  unfold PubEntry.cleanEnd
  dsimp only
  split <;> rfl

theorem PubEntry.cleanEnd_topic (e : PubEntry) (b : Bool) : (e.cleanEnd b).topic = e.topic := by
  unfold PubEntry.cleanEnd
  dsimp only
  split <;> rfl

theorem updateSent_fitsAfter (s : State) (i : PubIndex) (b : Bool) : FitsAfter s (updateSent s i b) := by
  have sent : FitsAfter s (s.updPub i fun _ => { (s.pubs.table[i]).cleanEnd b with rePend := false }) :=
    updPub_fitsAfter s i fun h => ⟨by simpa [PubEntry.cleanEnd_state] using h, PubEntry.cleanEnd_topic _ _⟩
  unfold updateSent
  dsimp only
  split
  · exact freePub_fitsAfter s i
  all_goals
    split
    · exact sent.trans (makePendingNew_fitsAfter _ i)
    · exact sent

theorem updateCollided_fitsAfter (s : State) (i : PubIndex) : FitsAfter s (updateCollided s i) := by
  unfold updateCollided
  split
  · exact (freePub_fitsAfter s i).trans (removeItem_fitsAfter _ _)
  all_goals
    split
    · refine .trans ?_ (removeItem_fitsAfter _ _)
      exact updPub_fitsAfter_of_same s i (fun _ => rfl) fun _ => rfl
    · exact updPub_fitsAfter_of_same s i (fun _ => rfl) fun _ => rfl

theorem updateAbandoned_fitsAfter (s : State) (i : PubIndex) : FitsAfter s (updateAbandoned s i) := by
  refine updPub_fitsAfter s i ?_
  split
  · exact fun h => absurd rfl h
  · exact fun h => ⟨h, rfl⟩

theorem startHoldOff_fitsAfter (s : State) (i : PubIndex) : FitsAfter s (startHoldOff s i) :=
  updPub_fitsAfter_of_same s i (fun _ => rfl) fun _ => rfl

theorem answerPeer_fitsAfter (s : State) (topic : Topic) : FitsAfter s (answerPeer s topic) := by
  unfold answerPeer
  split
  · exact .refl s
  · dsimp only
    split
    · exact .refl s
    · split
      · exact startHoldOff_fitsAfter s _
      · split
        · exact (makePendingNew_fitsAfter s _).trans (startHoldOff_fitsAfter _ _)
        · exact (makePendingRepeat_fitsAfter s _).trans (startHoldOff_fitsAfter _ _)

theorem activeEntry_some {s : State} {topic : Topic} {i : PubIndex} (found : activeEntry s topic = some i) :
    (s.pubs.table[i]).state = .active ∧ (s.pubs.table[i]).topic = topic := by
  simpa using tabFind_some found

theorem ownershipConflict_fitsAfter (s : State) (topic : Topic) (x : Station) :
    FitsAfter s (ownershipConflict s topic x).1 := by
  unfold ownershipConflict
  split
  · exact .refl s
  · rename_i i found
    split
    · exact (updPub_fitsAfter s i fun _ => ⟨by rw [(activeEntry_some found).1]; exact nofun, rfl⟩).trans (removeItem_fitsAfter _ _)
    · split
      · have conflict : FitsAfter s (s.updPub i fun e => { e with conflict := some x }) :=
          updPub_fitsAfter_of_same s i (fun _ => rfl) fun _ => rfl
        dsimp only
        split
        · exact conflict.trans (makePendingNew_fitsAfter _ i)
        · exact conflict
      · exact .refl s

/-- A change of every entry that leaves its state and its topic, with a shorter list. -/
theorem mapPubs_fitsAfter (s : State) {f : PubEntry → PubEntry} {items : List Item} (state : ∀ e, (f e).state = e.state)
    (topic : ∀ e, (f e).topic = e.topic) (shorter : items.Sublist s.pubs.items) :
    FitsAfter s (s.setPubs { s.pubs with items := items, table := tabMap f s.pubs.table }) := by
  have topics : s.pubs.topicsDiffer →
      PublicationUnit.topicsDiffer { s.pubs with items := items, table := tabMap f s.pubs.table } :=
    topicsDiffer_of_kept fun i h => by
      simp only [tabMap_getElem] at h ⊢
      exact ⟨state _ ▸ h, topic _⟩
  have ordered : s.pubs.ordered →
      PublicationUnit.ordered { s.pubs with items := items, table := tabMap f s.pubs.table } :=
    ordered_sublist shorter rfl
  exact setPubs_fitsAfter s topics ordered

theorem stopSending_fitsAfter (s : State) : FitsAfter s (stopSending s) :=
  mapPubs_fitsAfter s (fun _ => rfl) (fun _ => rfl) (List.nil_sublist _)

theorem pubsLeft_fitsAfter (s : State) : FitsAfter s (pubsLeft s) :=
  (stopSending_fitsAfter s).trans
    (mapPubs_fitsAfter (stopSending s) (items := (stopSending s).pubs.items) (fun _ => rfl) (fun _ => rfl)
      (List.Sublist.refl _))

theorem declareAt_fitsAfter (s : State) (i : PubIndex) (e : PubEntry) (fresh : ownsTopic s e.topic = false) :
    FitsAfter s (declareAt s i e) := by
  have declared : FitsAfter s (s.updPub i fun _ => e) :=
    { topics := topicsDiffer_new fun j busy same => by
        have owned := (ownsTopic_iff s e.topic).mpr ⟨j, busy, same⟩
        simp [fresh] at owned }
  unfold declareAt
  split
  · exact (declared.trans (makePendingNew_fitsAfter _ i)).trans (startPeriod_fitsAfter _ i)
  · exact declared

theorem writeEntry_fitsAfter (s : State) (i : PubIndex) (value : List Byte) : FitsAfter s (writeEntry s i value) := by
  have written : FitsAfter s (s.updPub i fun e => e.write value) :=
    updPub_fitsAfter_of_same s i (fun _ => rfl) fun _ => rfl
  unfold writeEntry
  dsimp only
  split
  · split
    · exact written.trans (updPub_fitsAfter_of_same _ i (fun _ => rfl) fun _ => rfl)
    · exact written.trans (makePendingNew_fitsAfter _ i)
  · exact written

theorem withdrawAt_fitsAfter (s : State) (i : PubIndex) (active : (s.pubs.table[i]).state = .active) :
    FitsAfter s (withdrawAt s i) := by
  unfold withdrawAt
  split
  · exact updPub_fitsAfter s i fun _ => ⟨by rw [active]; exact nofun, rfl⟩
  · exact (freePub_fitsAfter s i).trans (removeItem_fitsAfter _ _)

theorem periodicExpiry_fitsAfter (s : State) (i : PubIndex) : FitsAfter s (periodicExpiry s i) := by
  have restarted : FitsAfter s (s.updPub i fun e => { e with periodicTimer := millis e.period }) :=
    updPub_fitsAfter_of_same s i (fun _ => rfl) fun _ => rfl
  unfold periodicExpiry
  dsimp only
  split
  · exact restarted
  · split
    · split
      · exact restarted.trans (updPub_fitsAfter_of_same _ i (fun _ => rfl) fun _ => rfl)
      · exact restarted
    · exact restarted.trans (makePendingNew_fitsAfter _ i)

/-! ## Recalls and the tracker -/

theorem updRecall_fitsAfter (s : State) (p : RecallPos) {f : RecallEntry → RecallEntry}
    (kept : (f s.cont.recalls[p]).state ≠ .free →
      (s.cont.recalls[p]).state ≠ .free ∧ (f s.cont.recalls[p]).topic = (s.cont.recalls[p]).topic)
    (freed : (f s.cont.recalls[p]).state = .free → f s.cont.recalls[p] = RecallEntry.initial) :
    FitsAfter s (s.updRecall p f) :=
  { recalls := recallsFit_upd kept freed }

theorem freeRecall_fitsAfter (s : State) (p : RecallPos) : FitsAfter s (s.updRecall p fun _ => RecallEntry.initial) :=
  updRecall_fitsAfter s p (fun h => absurd rfl h) fun _ => rfl

theorem makeRecall_fitsAfter (s : State) (p : RecallPos) (topic : Topic) (o : RecallOrigin)
    (absent : recallAt s topic = none) : FitsAfter s (makeRecall s p topic o) :=
  FitsAfter.trans (t := s.updRecall p fun _ =>
      { state := .waiting, topic := topic, origin := o, expiries := 0, deadline := none })
    { recalls := recallsFit_new nofun (recallAt_none absent) } (placeItem_fitsAfter _ _ _)

theorem requestRecall_fitsAfter (s : State) (topic : Topic) (o : RecallOrigin) :
    FitsAfter s (requestRecall s topic o) := by
  unfold requestRecall
  split
  · rename_i conditions
    obtain ⟨-, -, -, absent⟩ := conditions
    split
    · exact makeRecall_fitsAfter s _ topic o absent
    · exact .refl s
  · exact .refl s

theorem recallExpiry_fitsAfter (s : State) (p : RecallPos) (waits : (s.cont.recalls[p]).waits = true) :
    FitsAfter s (recallExpiry p s).1 := by
  have busy : (s.cont.recalls[p]).state ≠ .free := fun free => by
    unfold RecallEntry.waits at waits
    rw [free] at waits
    simp at waits
  unfold recallExpiry
  dsimp only
  split
  · refine .trans ?_ (placeItem_fitsAfter _ _ _)
    exact updRecall_fitsAfter s p (fun _ => ⟨busy, rfl⟩) nofun
  · exact freeRecall_fitsAfter s p

theorem recallSent_fitsAfter (s : State) (topic : Topic) : FitsAfter s (recallSent s topic) := by
  unfold recallSent
  split
  · rename_i p found
    exact updRecall_fitsAfter s p (fun _ => ⟨(recallAt_some found).1, rfl⟩) nofun
  · exact .refl s

theorem recallAbandoned_fitsAfter (s : State) (topic : Topic) : FitsAfter s (recallAbandoned s topic).1 := by
  unfold recallAbandoned
  split
  · exact freeRecall_fitsAfter s _
  · exact .refl s

theorem suppressRecall_fitsAfter (s : State) (topic : Topic) : FitsAfter s (suppressRecall s topic) := by
  unfold suppressRecall
  split
  · rename_i p found
    split
    · refine .trans ?_ (removeItem_fitsAfter _ _)
      exact updRecall_fitsAfter s p (fun _ => ⟨(recallAt_some found).1, rfl⟩) nofun
    · exact .refl s
  · exact .refl s

theorem answerRecall_fitsAfter (s : State) (topic : Topic) : FitsAfter s (answerRecall s topic).1 := by
  unfold answerRecall
  split
  · dsimp only
    split
    · exact (removeItem_fitsAfter s _).trans (freeRecall_fitsAfter _ _)
    · exact freeRecall_fitsAfter s _
  · exact .refl s

theorem cancelRecalls_fitsAfter (s : State) : FitsAfter s (cancelRecalls s).1 :=
  { recalls := fun _ => initial_recallsFit }

theorem dropSource_fitsAfter (s : State) (x : Station) : FitsAfter s (dropSource s x) :=
  { tracker := fun h => ⟨(List.length_filter_le _ _).trans h.1, h.2.sublist List.filter_sublist⟩ }

/-! ## Epochs -/

theorem capture_fitsAfter (s : State) (e : SeqNo) (x : Station) : FitsAfter s (capture s e x).1 := by
  have captured : FitsAfter s (captureInto s e x).1 := { banks := captureInto_banksFit s e x }
  unfold capture
  split
  · exact captured
  · split
    · exact .refl s
    · dsimp only
      split <;> exact captured

theorem settleRequest_fitsAfter (own : Bool) (e : SeqNo) (x : Station) (s : State) :
    FitsAfter s (settleRequest own e x s).1 := by
  have settled : FitsAfter s (s.setEpoch s.epoch.settled) := setEpoch_fitsAfter s rfl rfl
  unfold settleRequest
  split
  · exact settled
  · split
    · exact settled.trans (removeItem_fitsAfter _ _)
    · exact .refl s

/-! ## Slots and reservations -/

theorem updSlot_fitsAfter (s : State) (k : SlotNo) {f : Slot → Slot}
    (hf : (s.store.slots[k]).fits → (f s.store.slots[k]).fits) : FitsAfter s (s.updSlot k f) :=
  { slots := slotsFit_upd hf }

/-- A change of the Message Store that leaves the slots. -/
theorem fitsAfter_of_slots {s t : State} (same : t = s.setStore t.store) (slots : t.store.slots = s.store.slots) :
    FitsAfter s t := by
  rw [same]
  refine setStore_fitsAfter s fun h => ?_
  unfold MessageStore.slotsFit
  rw [slots]
  exact h

theorem releaseTarget_slots (s : State) (t : Target) : (releaseTarget s t).store.slots = s.store.slots := by
  unfold releaseTarget
  split <;> rfl

theorem releaseTarget_fitsAfter (s : State) (t : Target) : FitsAfter s (releaseTarget s t) :=
  fitsAfter_of_slots (releaseTarget_eq s t) (releaseTarget_slots s t)

theorem releaseFrame_fitsAfter (s : State) : FitsAfter s (releaseFrame s) := by
  have released : FitsAfter s (s.accept.plan.targets.foldl (fun s r => releaseTarget s r.target) s) :=
    List.foldlRecOn (motive := FitsAfter s) _ _ (.refl s) fun u hu r _ => hu.trans (releaseTarget_fitsAfter u r.target)
  exact released.trans (setAccept_fitsAfter _ _)

theorem settleTarget_fitsAfter (own : Bool) (x : Station) (topic : Topic) (seq : SeqNo) (a b : Bool) (payload : List Byte)
    (c : Option Classification) (s : State) (r : Reserved) :
    FitsAfter s (settleTarget own x topic seq a b payload c s r) := by
  unfold settleTarget
  split
  · split
    · exact {}
    · exact updSlot_fitsAfter s _ fun _ => Slot.deliver_fits _ _
  · split
    · exact updSlot_fitsAfter s _ Slot.refresh_fits
    · exact releaseTarget_fitsAfter s _

theorem trackClassified_fitsAfter (s : State) (x : Station) (topic : Topic) (seq : SeqNo) (first : Bool) :
    FitsAfter s (trackClassified s x topic seq (frameClassification s x topic seq first)) := by
  unfold frameClassification
  split
  · exact { tracker := trackFrame_fits x topic seq first s.line.clock }
  · exact .refl s

theorem recordMark_fitsAfter (s : State) : FitsAfter s (recordMark s).1 := by
  unfold recordMark
  split <;> exact {}

theorem settleUpdate_fitsAfter (own : Bool) (x : Station) (topic : Topic) (seq : SeqNo) (a b : Bool)
    (payload : List Byte) (s : State) : FitsAfter s (settleUpdate own x topic seq a b payload s).1 := by
  have settled : ∀ (rs : List Reserved) c u, FitsAfter u (rs.foldl (settleTarget own x topic seq a b payload c) u) :=
    fun rs c u => List.foldlRecOn (motive := FitsAfter u) _ _ (.refl u) fun v hv r _ =>
      hv.trans (settleTarget_fitsAfter own x topic seq a b payload c v r)
  exact (((trackClassified_fitsAfter s x topic seq a).trans (settled _ _ _)).trans (recordMark_fitsAfter _)).trans (setAccept_fitsAfter _ _)

/-- The walk changes no slot. -/
theorem visit_slots (h : Header) (s : State) (i : SubIndex) : (visit h s i).1.store.slots = s.store.slots := by
  have reserved : ∀ t, (reserveTarget s i t).store.slots = s.store.slots := fun t => by cases t <;> rfl
  unfold visit
  dsimp only
  split
  · split
    · rfl
    · split
      · exact reserved _
      · split
        · exact reserved _
        · rfl
  · rfl

theorem walk_slots (h : Header) (is : List SubIndex) (s : State) : (walk h is s).store.slots = s.store.slots := by
  induction is generalizing s with
  | nil => rfl
  | cons i is ih =>
    unfold walk
    dsimp only
    split
    · rw [ih, visit_slots]
    · exact visit_slots h s i

theorem headerEvent_slots (s : State) (r : Reception) (rx : Receiver) :
    (headerEvent s r rx).store.slots = s.store.slots := walk_slots _ _ _

theorem headerEvent_fitsAfter (s : State) (r : Reception) (rx : Receiver) : FitsAfter s (headerEvent s r rx) := by
  have slots := headerEvent_slots s r rx
  unfold headerEvent matchingWalk at slots ⊢
  rw [walk_eq] at slots ⊢
  exact ((setLine_fitsAfter s _).trans ((setAccept_fitsAfter _ _).trans (setAccept_fitsAfter _ _))).trans
    (fitsAfter_of_slots rfl slots)

/-! ## The session -/

theorem initialAccess_fitsAfter (s : State) : FitsAfter s (s.setAccess AccessController.initial) :=
  { score := fun _ => initial_scoreFits }

theorem cancelEpoch_fitsAfter (s : State) : FitsAfter s (cancelEpoch s).1 := setEpoch_fitsAfter s rfl rfl

theorem epochLeft_fitsAfter (s : State) : FitsAfter s (epochLeft s).1 :=
  (cancelEpoch_fitsAfter s).trans (setEpoch_fitsAfter _ rfl rfl)

/-- A refused station, before its owners cancel what they have requested (R51). -/
def refusedBase (s : State) : State :=
  let u := stopSending (s.setSession { s.session with state := .refused, listenWindow := none, presenceTimer := none })
  u.setAccess { u.access with booking := none }

theorem refuse_fst (reason : RefusalReason) (s : State) :
    (refuse reason s).1 = (cancelEpoch (cancelRecalls (refusedBase s)).1).1 := rfl

theorem refusedBase_fitsAfter (s : State) : FitsAfter s (refusedBase s) :=
  ((setSession_fitsAfter s _).trans (stopSending_fitsAfter _)).trans (setAccess_fitsAfter _ rfl rfl)

theorem refuse_fitsAfter (reason : RefusalReason) (s : State) : FitsAfter s (refuse reason s).1 := by
  rw [refuse_fst]
  exact ((refusedBase_fitsAfter s).trans (cancelRecalls_fitsAfter _)).trans (cancelEpoch_fitsAfter _)

theorem defend_fitsAfter (s : State) : FitsAfter s (defend s) := by
  unfold defend
  split
  · exact placeItem_fitsAfter s _ _
  · split
    · exact .refl s
    · exact (removeItem_fitsAfter s _).trans (placeWith_fitsAfter _ _ _ _)

theorem slotsLeft_fitsAfter (s : State) : FitsAfter s (slotsLeft s) := by
  have slots : s.store.slotsFit → (slotsLeft s).store.slotsFit := fun h k => by
    simp only [slotsLeft, setStore_store, tabMap_getElem]
    split
    · exact Slot.goStale_fits .left
    · exact h k
  exact setStore_fitsAfter s slots

theorem clearTracker_fitsAfter (s : State) : FitsAfter s (s.setCont { s.cont with tracker := [] }) :=
  { tracker := fun _ => ⟨Nat.zero_le _, List.Pairwise.nil⟩ }

theorem clearSession_fitsAfter (s : State) : FitsAfter s (clearSession s) :=
  (((((((releaseFrame_fitsAfter s).trans (pubsLeft_fitsAfter _)).trans (slotsLeft_fitsAfter _)).trans
    (setRoster_fitsAfter _ _)).trans (clearTracker_fitsAfter _)).trans (initialAccess_fitsAfter _)).trans
    (setLine_fitsAfter _ _)).trans (setSession_fitsAfter _ _)

theorem leaveComplete_fitsAfter (s : State) : FitsAfter s (leaveComplete s).1 :=
  ((cancelRecalls_fitsAfter s).trans (epochLeft_fitsAfter _)).trans (clearSession_fitsAfter _)

end Sys2Proof.Machine
end

section
/-! The invariants of single blocks are kept by every step: the clauses of `Kept` for them, and the obligations. -/

namespace Sys2Proof.Machine

theorem post_fitsAfter (s : State) (n : Notice) : FitsAfter s (post s n) := by
  have notices := post_noticesFit s n
  obtain ⟨l, b, posted⟩ := post_eq s n
  rw [posted] at notices ⊢
  exact { notices := notices }

/-- A change of the port that leaves the notices. -/
theorem setPort_fitsAfter (s : State) {p : HostPort} (notices : p.notices = s.port.notices) (lost : p.lost = s.port.lost) :
    FitsAfter s (s.setPort p) where
  notices := fun h => by
    unfold HostPort.noticesFit
    rw [setPort_port, notices, lost]
    exact h

theorem readNotice_fitsAfter {s : State} {n : NoticeRecord} {rest : List NoticeRecord}
    (queued : s.port.notices = n :: rest) :
    FitsAfter s (s.setPort { s.port with notices := rest, lost := s.port.lost && !rest.isEmpty }) where
  notices := fun h => by
    obtain ⟨bound, -⟩ := h
    rw [queued, List.length_cons] at bound
    refine ⟨by show rest.length ≤ 32; omega, fun lost => ?_⟩
    simp only [setPort_port, Bool.and_eq_true, Bool.not_eq_true', List.isEmpty_eq_false_iff] at lost ⊢
    exact lost.2

theorem rescore_fitsAfter (s : State) {n : Nat} (h : n ≤ 255) : FitsAfter s (rescore s n).1 :=
  { score := fun _ => rescore_scoreFits s n h }

/-- Counting an attempt leaves the order of the list. -/
theorem countAttempt_fitsAfter (s : State) (k : ItemKind) : FitsAfter s (countAttempt s k) where
  ordered := fun h => by
    refine ⟨List.pairwise_map.mpr (h.1.imp fun {a b} ab => ?_), fun it hit => ?_⟩
    · split <;> split <;> exact ab
    · obtain ⟨old, listed, rfl⟩ := List.mem_map.mp hit
      split <;> exact h.2 old listed

theorem noteLatch_fitsAfter (s : State) (k : ItemKind) : FitsAfter s (noteLatch s k) := by
  cases k with
  | epoch => exact setEpoch_fitsAfter s rfl rfl
  | update i => exact updPub_fitsAfter_of_same s i (fun _ => rfl) fun _ => rfl
  | claim => exact .refl s
  | presence d => exact .refl s
  | recallItem topic => exact .refl s

theorem startAttempt_fitsAfter (s : State) (it : Item) : FitsAfter s (startAttempt s it) :=
  .trans (.trans (noteLatch_fitsAfter s it.kind)
    (setAccess_fitsAfter _ (x := { (noteLatch s it.kind).access with
      slotTime := none
      inFlight := some { kind := it.kind, latchedRepeat := latchesRepeat s it.kind,
                         covered := encodeFrame (latchedFrame s it.kind) } }) rfl rfl))
    (setLine_fitsAfter _ _)

theorem ownerAbandoned_fitsAfter (k : ItemKind) (s : State) : FitsAfter s (ownerAbandoned k s).1 := by
  cases k with
  | claim =>
    unfold ownerAbandoned
    dsimp only
    split
    · exact refuse_fitsAfter _ s
    · exact .refl s
  | presence d => exact .refl s
  | epoch => exact setEpoch_fitsAfter s rfl rfl
  | recallItem topic => exact recallAbandoned_fitsAfter s topic
  | update i => exact updateAbandoned_fitsAfter s i

theorem ownerCollided_fitsAfter (k : ItemKind) (s : State) : FitsAfter s (ownerCollided k s) := by
  have removed : FitsAfter s (if s.session.state = .leaving then removeItem s k else s) := by
    split
    · exact removeItem_fitsAfter s k
    · exact .refl s
  cases k with
  | claim => exact removed
  | presence d => exact removed
  | recallItem topic => exact removed
  | epoch => exact removed.trans (setEpoch_fitsAfter _ rfl rfl)
  | update i => exact removed.trans (updateCollided_fitsAfter _ i)

theorem jamOutcome_fitsAfter (f : Flight) (s : State) : FitsAfter s (jamOutcome f s).1 := by
  have landed : FitsAfter s ((s.setLine s.line.afterJam).setAccess { s.access with inFlight := none }) :=
    (setLine_fitsAfter s _).trans (setAccess_fitsAfter _ rfl rfl)
  unfold jamOutcome
  dsimp only
  split
  · exact (landed.trans (removeItem_fitsAfter _ _)).trans (ownerAbandoned_fitsAfter _ _)
  · exact landed.trans (ownerCollided_fitsAfter _ _)

theorem presenceExpiry_fitsAfter (s : State) : FitsAfter s (presenceExpiry s) := by
  have restarted : FitsAfter s (restartPresence s) := setSession_fitsAfter s _
  unfold presenceExpiry
  dsimp only
  split
  · exact restarted
  · exact restarted.trans (placeItem_fitsAfter _ _ _)

theorem initialState_fitsAfter (s : State) (hold : ResetHold) (session : SessionController) (port : HostPort)
    (notices : port.noticesFit) :
    FitsAfter s { State.reset with
      pending := s.pending, free := s.free, hold := hold, session := session, port := port } where
  score := fun _ => initial_scoreFits
  notices := fun _ => notices
  tracker := fun _ => initial_trackerFits
  recalls := fun _ => initial_recallsFit
  banks := fun _ => initial_banksFit
  slots := fun _ => initial_slotsFit
  topics := fun _ => initial_topicsDiffer
  ordered := fun _ => initial_ordered

theorem hardReset_fitsAfter (h : ResetHold) (s : State) : FitsAfter s (hardReset h s) :=
  initialState_fitsAfter s h SessionController.initial { HostPort.initial with sel := s.port.sel.acrossReset }
    initial_noticesFit

theorem softReset_fitsAfter (s : State) : FitsAfter s (softResetBody [] s).1 :=
  initialState_fitsAfter s ResetHold.over { SessionController.initial with record := s.session.record } s.port.softReset
    initial_noticesFit

theorem tick_recallsFit {s : State} (h : s.cont.recallsFit) :
    ContinuityUnit.recallsFit { s.cont with recalls := (tick s).cont.recalls } := by
  refine ⟨fun p q hp hq same => ?_, fun p hp => ?_⟩
  · dsimp only at hp hq same
    rw [tick_recall] at hp hq same
    rw [tick_recall] at same
    exact h.1 p q hp hq same
  · dsimp only at hp ⊢
    rw [tick_recall] at hp ⊢
    rw [h.2 p hp]
    rfl

theorem tick_slotsFit {s : State} (h : s.store.slotsFit) :
    MessageStore.slotsFit { s.store with slots := (tick s).store.slots } := fun k => by
  dsimp only
  rw [tick_slot]
  obtain ⟨empty, reason, deadline⟩ := h k
  exact ⟨empty, reason, by rw [Timer.tick_isSome]; exact deadline⟩

theorem tick_topicsDiffer {s : State} :
    s.pubs.topicsDiffer → PublicationUnit.topicsDiffer { s.pubs with table := (tick s).pubs.table } :=
  topicsDiffer_of_kept fun i h => by
    dsimp only at h ⊢
    rw [tick_pub] at h ⊢
    exact ⟨h, rfl⟩

/-- New times in the blocks that keep time. -/
theorem newTimes_fitsAfter (s : State) (line : LineInterface) (slotTime : Option Nat) (session : SessionController)
    (roster : Vector RosterEntry 32) {slots : Vector Slot 64} {table : Vector PubEntry 32} {recalls : Vector RecallEntry 8}
    (hs : s.store.slotsFit → MessageStore.slotsFit { s.store with slots := slots })
    (ht : s.pubs.topicsDiffer → PublicationUnit.topicsDiffer { s.pubs with table := table })
    (hr : s.cont.recallsFit → ContinuityUnit.recallsFit { s.cont with recalls := recalls }) :
    FitsAfter s { s with
      line := line, access := { s.access with slotTime := slotTime }, session := session, roster := roster,
      store := { s.store with slots := slots }, pubs := { s.pubs with table := table },
      cont := { s.cont with recalls := recalls } } :=
  { slots := hs, topics := ht, recalls := hr, ordered := ordered_sublist (List.Sublist.refl _) rfl }

theorem tick_fitsAfter (s : State) : FitsAfter s (tick s) :=
  newTimes_fitsAfter s _ _ _ _ tick_slotsFit tick_topicsDiffer tick_recallsFit

/-- Every change that the commands are made of leaves the blocks fit. -/
theorem fitsAfter_kept (s₀ : State) : Kept (FitsAfter s₀) where
  hardReset s h fits := fits.trans (hardReset_fitsAfter h s)
  hold s h fits := fits.trans {}
  softReset s fits := fits.trans (softReset_fitsAfter s)
  tick s fits := fits.trans (tick_fitsAfter s)
  port s p notices lost fits := fits.trans (setPort_fitsAfter s notices lost)
  post s n fits := fits.trans (post_fitsAfter s n)
  readNotice s n rest queued fits := fits.trans (readNotice_fitsAfter queued)
  line s x _ _ fits := fits.trans (setLine_fitsAfter s x)
  access s a score standing _ fits := fits.trans (setAccess_fitsAfter s score standing)
  rescore s n h fits := fits.trans (rescore_fitsAfter s h)
  countAttempt s k fits := fits.trans (countAttempt_fitsAfter s k)
  startAttempt s it _ _ _ _ fits := fits.trans (startAttempt_fitsAfter s it)
  jamOutcome s f _ _ fits := fits.trans (jamOutcome_fitsAfter f s)
  leaveComplete s _ fits := fits.trans (leaveComplete_fitsAfter s)
  leaving s _ fits := fits.trans (setSession_fitsAfter s _)
  headerEvent s _ r' rx _ _ fits := fits.trans (headerEvent_fitsAfter s r' rx)
  startClaiming s _ fits := fits.trans ((setSession_fitsAfter s _).trans (placeItem_fitsAfter _ _ _))
  presenceExpiry s _ fits := fits.trans (presenceExpiry_fitsAfter s)
  silentPeer s x _ fits := fits.trans (setRoster_fitsAfter s _)
  goStale s k reason _ fits := fits.trans (updSlot_fitsAfter s k fun _ => Slot.goStale_fits reason)
  setLimit s k limit fits := fits.trans (updSlot_fitsAfter s k (Slot.setLimit_fits limit))
  readSlot s k fits := fits.trans (updSlot_fitsAfter s k fun h => ⟨fun empty => ⟨(h.1 empty).1, rfl⟩, h.2⟩)
  requestRecall s topic o fits := fits.trans (requestRecall_fitsAfter s topic o)
  recallExpiry s p waits fits := fits.trans (recallExpiry_fitsAfter s p waits)
  recallOrigin s p busy fits :=
    fits.trans (updRecall_fitsAfter s p (fun _ => ⟨busy, rfl⟩) fun free => absurd free busy)
  makeRecall s p topic o absent _ fits := fits.trans (makeRecall_fitsAfter s p topic o absent)
  periodicExpiry s i fits := fits.trans (periodicExpiry_fitsAfter s i)
  holdOff s i fits := fits.trans (updPub_fitsAfter_of_same s i (fun _ => rfl) fun _ => rfl)
  configure s _ r _ _ fits := fits.trans ((setSession_fitsAfter s _).trans (setStore_fitsAfter _ id))
  join s r _ _ fits := fits.trans ((((setSession_fitsAfter s _).trans (setLine_fitsAfter _ _)).trans
    (initialAccess_fitsAfter _)).trans (setRoster_fitsAfter _ _))
  sub s i f fits := fits.trans (setAccept_fitsAfter s _)
  takeRecords s q n _ fits := fits.trans (setStore_fitsAfter s id)
  clearOverflow s q fits := fits.trans (setStore_fitsAfter s id)
  declare s i topic c m period value _ fresh fits := fits.trans (declareAt_fitsAfter s i _ fresh)
  write s i value _ fits := fits.trans (writeEntry_fitsAfter s i value)
  withdraw s i active fits := fits.trans (withdrawAt_fitsAfter s i active)
  freeYielded s i _ fits := fits.trans (freePub_fitsAfter s i)
  requestEpoch s _ fits := fits.trans
    (.trans (setEpoch_fitsAfter s (x := { s.epoch with request := .waiting }) rfl rfl) (placeItem_fitsAfter _ _ _))
  openBank s b unheld found fits := fits.trans { banks := openBank_banksFit unheld found }
  releaseBank s b found fits := fits.trans { banks := releaseBank_banksFit found }

theorem cleanEnd_fitsAfter (s : State) : FitsAfter s (cleanEnd s) := by
  unfold cleanEnd
  split
  · rename_i f _
    have landed := ((removeItem_fitsAfter s f.kind).trans
      (setAccess_fitsAfter (removeItem s f.kind) (x := { s.access with inFlight := none }) rfl rfl)).trans
      (setLine_fitsAfter _ { s.line with send := .off })
    refine landed.trans ?_
    unfold ownerClean
    split
    · exact recallSent_fitsAfter _ _
    · exact updateSent_fitsAfter _ _ _
    all_goals exact .refl _
  · exact .refl s

theorem lowerScore_fitsAfter (s : State) (n : Nat) : FitsAfter s (lowerScore s n).1 :=
  { score := fun h => rescore_scoreFits s _ ((Nat.sub_le _ _).trans h.1) }

theorem accessAtFrame_fitsAfter (own : Bool) (f : Frame) (s : State) : FitsAfter s (accessAtFrame own f s).1 := by
  have based : FitsAfter s (setBase s f.cls f.source) := setAccess_fitsAfter s rfl rfl
  unfold accessAtFrame
  dsimp only
  split
  · exact (based.trans (cleanEnd_fitsAfter _)).trans (lowerScore_fitsAfter _ 2)
  · split
    · exact based.trans (lowerScore_fitsAfter _ 1)
    · exact based

theorem answerDuplicate_fitsAfter (f : Frame) (s : State) : FitsAfter s (answerDuplicate f s).1 := by
  unfold answerDuplicate
  split
  · exact defend_fitsAfter s
  · dsimp only
    split
    · exact refuse_fitsAfter _ s
    · split <;> exact defend_fitsAfter s
  all_goals exact defend_fitsAfter s

theorem enterMember_fitsAfter (s : State) : FitsAfter s (enterMember s).1 := by
  have restarted : FitsAfter s (restartPresence (s.setSession { s.session with state := .member })) :=
    (setSession_fitsAfter s _).trans (setSession_fitsAfter _ _)
  unfold enterMember
  generalize restartPresence (s.setSession { s.session with state := .member }) = u at restarted ⊢
  dsimp only
  exact restarted.trans (announce_fitsAfter u)

theorem sessionAtFrame_fitsAfter (own : Bool) (f : Frame) (s : State) : FitsAfter s (sessionAtFrame own f s).1 := by
  unfold sessionAtFrame
  split
  · unfold ownCleanEnd
    split
    · exact enterMember_fitsAfter s
    · exact setSession_fitsAfter s _
    · exact .refl s
  · split
    · unfold foreignOwnNumber
      split
      · exact refuse_fitsAfter _ s
      · exact refuse_fitsAfter _ s
      · exact answerDuplicate_fitsAfter f s
      all_goals exact .refl s
    · exact .refl s

theorem identifyPeer_fitsAfter (s : State) (x : Station) (caution : Bool) (last : Option SeqNo) (tag : UnitTag) :
    FitsAfter s (identifyPeer s x caution last tag).1 := by
  have identified : FitsAfter s (s.updRoster x fun e => e.identify caution last tag) := setRoster_fitsAfter s _
  unfold identifyPeer
  dsimp only
  split
  · exact identified.trans (dropSource_fitsAfter _ x)
  · exact identified

theorem rosterAtFrame_fitsAfter (own : Bool) (f : Frame) (s : State) : FitsAfter s (rosterAtFrame own f s).1 := by
  have heard : FitsAfter s (s.updRoster f.source fun e => e.heard s.line.clock (silenceTime s)) := setRoster_fitsAfter s _
  unfold rosterAtFrame
  split
  · exact setRoster_fitsAfter s _
  · split
    · exact .refl s
    · unfold hearPeer
      dsimp only
      split
      · rw [andThen_fst]
        exact heard.trans (identifyPeer_fitsAfter _ _ _ _ _)
      · rw [andThen_fst]
        exact heard.trans (identifyPeer_fitsAfter _ _ _ _ _)
      all_goals exact heard

theorem acceptanceAtFrame_fitsAfter (own headerSeen : Bool) (f : Frame) (s : State) :
    FitsAfter s (acceptanceAtFrame own headerSeen f s).1 := by
  unfold acceptanceAtFrame
  split
  · split
    · exact settleUpdate_fitsAfter _ _ _ _ _ _ _ s
    all_goals exact releaseFrame_fitsAfter s
  · exact .refl s

theorem publicationAtFrame_fitsAfter (own : Bool) (f : Frame) (s : State) :
    FitsAfter s (publicationAtFrame own f s).1 := by
  unfold publicationAtFrame
  split
  · exact .refl s
  · split
    · exact ownershipConflict_fitsAfter s _ _
    · exact answerPeer_fitsAfter s _
    all_goals exact .refl s

theorem continuityAtFrame_fitsAfter (own : Bool) (f : Frame) (s : State) :
    FitsAfter s (continuityAtFrame own f s).1 := by
  unfold continuityAtFrame
  split
  · exact answerRecall_fitsAfter s _
  · split
    · exact .refl s
    · exact suppressRecall_fitsAfter s _
  all_goals exact .refl s

theorem epochAtFrame_fitsAfter (own : Bool) (f : Frame) (s : State) : FitsAfter s (epochAtFrame own f s).1 := by
  unfold epochAtFrame
  split
  · exact (capture_fitsAfter s _ _).trans (settleRequest_fitsAfter own _ _ _)
  all_goals exact .refl s

theorem fitsAfter_keptByBlocks (s₀ : State) : KeptByBlocks (FitsAfter s₀) where
  free s n fits := fits.trans {}
  post s n fits := fits.trans (post_fitsAfter s n)
  resetBases s fits := fits.trans (setAccess_fitsAfter s rfl rfl)
  rescore s n h fits := fits.trans (rescore_fitsAfter s h)
  releaseFrame s fits := fits.trans (releaseFrame_fitsAfter s)
  accessAtFrame own f s fits := fits.trans (accessAtFrame_fitsAfter own f s)
  sessionAtFrame own f s fits := fits.trans (sessionAtFrame_fitsAfter own f s)
  rosterAtFrame own f s fits := fits.trans (rosterAtFrame_fitsAfter own f s)
  acceptanceAtFrame own headerSeen f s fits := fits.trans (acceptanceAtFrame_fitsAfter own headerSeen f s)
  publicationAtFrame own f s fits := fits.trans (publicationAtFrame_fitsAfter own f s)
  continuityAtFrame own f s fits := fits.trans (continuityAtFrame_fitsAfter own f s)
  epochAtFrame own f s fits := fits.trans (epochAtFrame_fitsAfter own f s)

/-- Every command leaves the blocks fit. -/
theorem exec_fitsAfter {c : Instr} {s t : State} (next : exec c s = .next t) : FitsAfter s t :=
  (fitsAfter_kept s).exec ((fitsAfter_keptByBlocks s).atEnd (fitsAfter_kept s)
    (fun u _ _ _ fits => fits.trans (setLine_fitsAfter u _)) fun _ => id) next (.refl s)

/-- Every step leaves the blocks fit; it starts from the state without the command that it takes, or with the one that has
fallen due. -/
theorem step_fitsAfter {s t : State} (next : step s = .next t) :
    ∃ q n, FitsAfter { s with pending := q, free := n } t := by
  obtain ⟨c, rest, -, next⟩ | ⟨-, rfl⟩ := step_cases next
  · exact ⟨rest, s.free, exec_fitsAfter next⟩
  · obtain same | same | ⟨c, -, same⟩ := idle_cases s
    · exact ⟨s.pending, s.free, same ▸ tick_fitsAfter s⟩
    · refine ⟨s.pending, s.free, ?_⟩
      rw [same, holdTick_eq]
      exact {}
    · exact ⟨[c], s.free + 1, same ▸ .refl _⟩

/-! ## The invariants of several blocks at reset -/

theorem initial_sessionFits : SessionController.initial.fits := by
  simp [SessionController.fits, SessionController.initial]

theorem initial_rosterFits : rosterFits State.reset := by
  refine ⟨fun _ n => ?_, fun online => absurd rfl online⟩
  simp [State.reset]

theorem initial_planFits : planFits State.reset := by
  refine ⟨List.Pairwise.nil, fun q => ?_, fun busy => absurd rfl busy⟩
  simp [State.reset, MessageStore.initial, ReceiveQueue.initial, AcceptanceUnit.initial, Plan.empty]

theorem initial_poolFits : poolFits State.reset := by
  have none : ∀ q : QueueNo, (State.reset.store.queues[q]).cells = 0 := fun q => by
    simp [State.reset, MessageStore.initial, ReceiveQueue.initial, ReceiveQueue.cells]
  refine ⟨?_, fun q => by rw [none q]; exact Nat.zero_le _⟩
  unfold MessageStore.cellsUsed
  simp only [none]
  decide

theorem initial_itemsFit : itemsFit State.reset := by
  refine ⟨List.Pairwise.nil, nofun, nofun, nofun, nofun, fun i flying => ?_, nofun, fun _ => rfl⟩
  simp [State.reset, PublicationUnit.initial, PubEntry.initial] at flying

/-! ## The obligations -/

/-- Settles O60: every block fits at its initial values. -/
theorem invariantsHoldAtReset : Obligations.InvariantsHoldAtReset := by
  unfold Obligations.InvariantsHoldAtReset
  exact ⟨initial_scoreFits, initial_noticesFit, initial_trackerFits, initial_banksFit, initial_slotsFit,
    initial_topicsDiffer, initial_ordered, initial_sessionFits, initial_rosterFits, fun _ => ⟨rfl, rfl⟩,
    initial_planFits, initial_poolFits, initial_recallsFit, initial_itemsFit⟩

/-- Settles O3: the queue is a field that no command writes. -/
theorem everyCommandLeavesTheQueue : Obligations.EveryCommandLeavesTheQueue := fun c s => by
  obtain ⟨t, next⟩ := exec_next c s
  exact ⟨t, next, (exec_fitsAfter next).pending⟩

/-- Settles O51. -/
theorem scoreAndStandingStayFit : Obligations.ScoreAndStandingStayFit := fun _ _ fits next => by
  obtain ⟨_, _, after⟩ := step_fitsAfter next
  exact after.score fits

/-- Settles O52. -/
theorem noticeQueueStaysBounded : Obligations.NoticeQueueStaysBounded := fun _ _ fits next => by
  obtain ⟨_, _, after⟩ := step_fitsAfter next
  exact after.notices fits

/-- Settles O53. -/
theorem trackerStaysBoundedAndDistinct : Obligations.TrackerStaysBoundedAndDistinct := by
  refine ⟨fun _ _ fits next => ?_, fun _ _ fits next => ?_⟩
  · obtain ⟨_, _, after⟩ := step_fitsAfter next
    exact after.tracker fits
  · obtain ⟨_, _, after⟩ := step_fitsAfter next
    exact after.recalls fits

/-- Settles O54. -/
theorem snapshotBanksStayFit : Obligations.SnapshotBanksStayFit := fun _ _ fits next => by
  obtain ⟨_, _, after⟩ := step_fitsAfter next
  exact after.banks fits

/-- Settles O55: a slot leaves its invariant in none of the ways it can change: delivery, refresh, a new limit, going stale,
reading, and the passing of time. -/
theorem slotsStayFit : Obligations.SlotsStayFit := fun _ _ fits next => by
  obtain ⟨_, _, after⟩ := step_fitsAfter next
  exact after.slots fits

/-- Settles O56. -/
theorem publicationTopicsStayDistinct : Obligations.PublicationTopicsStayDistinct := fun _ _ fits next => by
  obtain ⟨_, _, after⟩ := step_fitsAfter next
  exact after.topics fits

end Sys2Proof.Machine
end

section
/-! Record, timers, roster and line fit the station state (R1, R18, R42, R43, R49, R55, R56): the three invariants together, and
what each change leaves of them. -/

namespace Sys2Proof.Machine

/-! ## What the operations of one block leave of the others -/

@[simp] theorem releaseFrame_line (s : State) : (releaseFrame s).line = s.line := by
  rw [releaseFrame_eq, setStore_line, setAccept_line]
@[simp] theorem releaseFrame_access (s : State) : (releaseFrame s).access = s.access := by
  rw [releaseFrame_eq, setStore_access, setAccept_access]
@[simp] theorem releaseFrame_session (s : State) : (releaseFrame s).session = s.session := by
  rw [releaseFrame_eq, setStore_session, setAccept_session]
@[simp] theorem releaseFrame_roster (s : State) : (releaseFrame s).roster = s.roster := by
  rw [releaseFrame_eq, setStore_roster, setAccept_roster]
@[simp] theorem releaseFrame_pubs (s : State) : (releaseFrame s).pubs = s.pubs := by
  rw [releaseFrame_eq, setStore_pubs, setAccept_pubs]
@[simp] theorem releaseFrame_cont (s : State) : (releaseFrame s).cont = s.cont := by
  rw [releaseFrame_eq, setStore_cont, setAccept_cont]
@[simp] theorem releaseFrame_epoch (s : State) : (releaseFrame s).epoch = s.epoch := by
  rw [releaseFrame_eq, setStore_epoch, setAccept_epoch]

/-- Closing the session, with what the released frame leaves. -/
theorem clearSession_session (s : State) : (clearSession s).session =
    { s.session with frozen := false, state := .offline, listenWindow := none, presenceTimer := none } := by
  unfold clearSession slotsLeft pubsLeft stopSending
  simp

theorem clearSession_line (s : State) :
    (clearSession s).line = { LineInterface.initial with clock := s.line.clock } := by
  unfold clearSession slotsLeft pubsLeft stopSending
  simp [LineInterface.left]

theorem clearSession_roster (s : State) :
    (clearSession s).roster = Vector.replicate 32 RosterEntry.absentEntry := rfl

theorem leaveComplete_fst (s : State) :
    (leaveComplete s).1 = clearSession (epochLeft (cancelRecalls s).1).1 := rfl

theorem withdrawAt_eq (s : State) (i : PubIndex) : withdrawAt s i = s.setPubs (withdrawAt s i).pubs := by
  unfold withdrawAt
  split <;> rfl

theorem declareAt_eq (s : State) (i : PubIndex) (e : PubEntry) : declareAt s i e = s.setPubs (declareAt s i e).pubs := by
  unfold declareAt
  split
  · exact setPubs_trans (setPubs_trans (updPub_eq s i _) (makePendingNew_eq _ i)) (updPub_eq _ i _)
  · rfl

theorem writeEntry_eq (s : State) (i : PubIndex) (value : List Byte) :
    writeEntry s i value = s.setPubs (writeEntry s i value).pubs := by
  unfold writeEntry
  dsimp only
  split
  · split
    · rfl
    · exact setPubs_trans (updPub_eq s i _) (makePendingNew_eq _ i)
  · rfl

theorem periodicExpiry_eq (s : State) (i : PubIndex) : periodicExpiry s i = s.setPubs (periodicExpiry s i).pubs := by
  unfold periodicExpiry
  dsimp only
  split
  · rfl
  · split
    · split <;> rfl
    · exact setPubs_trans (updPub_eq s i _) (makePendingNew_eq _ i)

theorem defend_eq (s : State) : defend s = s.setPubs (defend s).pubs := by
  unfold defend
  split
  · rfl
  · split <;> rfl

theorem recallExpiry_eq (p : RecallPos) (s : State) :
    (recallExpiry p s).1 = (s.setCont (recallExpiry p s).1.cont).setPubs (recallExpiry p s).1.pubs := by
  unfold recallExpiry
  dsimp only
  split <;> rfl

theorem recallSent_eq (s : State) (topic : Topic) : recallSent s topic = s.setCont (recallSent s topic).cont := by
  unfold recallSent
  split <;> rfl

theorem recallAbandoned_eq (s : State) (topic : Topic) :
    (recallAbandoned s topic).1 = s.setCont (recallAbandoned s topic).1.cont := by
  unfold recallAbandoned
  split <;> rfl

/-- A collision that is not the sixteenth changes the owner and the transmit list alone (R32). -/
theorem ownerCollided_eq (k : ItemKind) (s : State) :
    ownerCollided k s = (s.setEpoch (ownerCollided k s).epoch).setPubs (ownerCollided k s).pubs := by
  have removed : (if s.session.state = .leaving then removeItem s k else s) =
      s.setPubs (if s.session.state = .leaving then removeItem s k else s).pubs := by
    split <;> rfl
  unfold ownerCollided
  dsimp only
  generalize (if s.session.state = .leaving then removeItem s k else s) = u at removed
  rw [removed]
  cases k with
  | update i =>
    dsimp only
    rw [updateCollided_eq]
    rfl
  | claim => rfl
  | presence d => rfl
  | epoch => rfl
  | recallItem topic => rfl

/-- The owner told of a clean end changes itself and the transmit list alone (R30). -/
theorem ownerClean_eq (f : Flight) (s : State) :
    ownerClean f s = (s.setCont (ownerClean f s).cont).setPubs (ownerClean f s).pubs := by
  unfold ownerClean
  split
  · rw [recallSent_eq]
    rfl
  · rw [updateSent_eq]
    rfl
  all_goals rfl

/-- The clean end of an attempt (R30): the item leaves the list, the flight ends, the driver is off, and the owner is told. -/
theorem cleanEnd_of_flight {s : State} {f : Flight} (flying : s.access.inFlight = some f) :
    cleanEnd s = ownerClean f (((removeItem s f.kind).setAccess { s.access with inFlight := none }).setLine
      { s.line with send := .off }) := by
  unfold cleanEnd
  rw [flying]
  rfl

theorem cleanEnd_of_none {s : State} (none : s.access.inFlight = none) : cleanEnd s = s := by
  unfold cleanEnd
  rw [none]

/-- `t` is `s` but for the Acceptance Unit, the Message Store and the tracker. -/
def AcceptanceChanged (s t : State) : Prop := t = ((s.setAccept t.accept).setStore t.store).setCont t.cont

theorem AcceptanceChanged.trans {s t u : State} (h : AcceptanceChanged s t) (h' : AcceptanceChanged t u) :
    AcceptanceChanged s u := by
  unfold AcceptanceChanged at *
  rw [h', h]
  rfl

theorem AcceptanceChanged.of_store {s t : State} (h : t = s.setStore t.store) : AcceptanceChanged s t := by
  unfold AcceptanceChanged
  rw [h]
  rfl

theorem AcceptanceChanged.of_accept {s t : State} (h : t = s.setAccept t.accept) : AcceptanceChanged s t := by
  unfold AcceptanceChanged
  rw [h]
  rfl

theorem settleTargets_eq (own : Bool) (x : Station) (topic : Topic) (seq : SeqNo) (a b : Bool) (payload : List Byte)
    (c : Option Classification) (rs : List Reserved) (s : State) :
    rs.foldl (settleTarget own x topic seq a b payload c) s =
      s.setStore (rs.foldl (settleTarget own x topic seq a b payload c) s).store := by
  induction rs generalizing s with
  | nil => rfl
  | cons r rs ih => exact setStore_trans (settleTarget_eq own x topic seq a b payload c s r) (ih _)

theorem releaseFrame_changed (s : State) : AcceptanceChanged s (releaseFrame s) := by
  have released := releaseFrame_eq s
  unfold AcceptanceChanged
  generalize releaseFrame s = t at released ⊢
  rw [released]
  rfl

theorem trackClassified_changed (s : State) (x : Station) (topic : Topic) (seq : SeqNo) (c : Option Classification) :
    AcceptanceChanged s (trackClassified s x topic seq c) := by
  cases c <;> rfl

theorem recordMark_changed (s : State) : AcceptanceChanged s (recordMark s).1 := by
  unfold recordMark
  split <;> rfl

theorem closeFrame_changed (s : State) : AcceptanceChanged s (closeFrame s) :=
  .of_accept (closeFrame_eq s)

/-- Settling a frame's reservations changes the Acceptance Unit, the Message Store and the tracker alone (R76 to R82). -/
theorem settleUpdate_changed (own : Bool) (x : Station) (topic : Topic) (seq : SeqNo) (a b : Bool) (payload : List Byte)
    (s : State) : AcceptanceChanged s (settleUpdate own x topic seq a b payload s).1 := by
  unfold settleUpdate
  dsimp only
  refine .trans ?_ (closeFrame_changed _)
  refine .trans ?_ (recordMark_changed _)
  exact .trans (trackClassified_changed s _ _ _ _) (.of_store (settleTargets_eq ..))

/-- At a frame end the Acceptance Unit changes itself, the Message Store and the tracker alone. -/
theorem acceptanceAtFrame_changed (own headerSeen : Bool) (f : Frame) (s : State) :
    AcceptanceChanged s (acceptanceAtFrame own headerSeen f s).1 := by
  unfold acceptanceAtFrame
  split
  · split
    · exact settleUpdate_changed _ _ _ _ _ _ _ s
    all_goals exact releaseFrame_changed s
  · rfl

theorem AcceptanceChanged.session {s t : State} (h : AcceptanceChanged s t) : t.session = s.session := by
  rw [h]
  rfl

theorem AcceptanceChanged.roster {s t : State} (h : AcceptanceChanged s t) : t.roster = s.roster := by
  rw [h]
  rfl

/-! ## The three invariants together -/

/-- The session, the roster and the line fit each other. -/
def stationFits (s : State) : Prop := s.session.fits ∧ rosterFits s ∧ quietOffline s

theorem rosterFits_of_same {s t : State} (session : t.session = s.session) (roster : t.roster = s.roster)
    (h : rosterFits s) : rosterFits t := by
  unfold rosterFits ownNumber
  rw [session, roster]
  exact h

/-- What leaves session, roster, line and flight. -/
theorem stationFits_of_same {s t : State} (session : t.session = s.session) (roster : t.roster = s.roster)
    (line : t.line = s.line) (flight : t.access.inFlight = s.access.inFlight) (h : stationFits s) : stationFits t := by
  obtain ⟨fits, rostered, quiet⟩ := h
  refine ⟨session ▸ fits, rosterFits_of_same session roster rostered, ?_⟩
  unfold quietOffline
  rw [session, line, flight]
  exact quiet

/-- Outside OFFLINE, what leaves session and roster. -/
theorem stationFits_of_online {s t : State} (online : s.session.state ≠ .offline) (session : t.session = s.session)
    (roster : t.roster = s.roster) (h : stationFits s) : stationFits t := by
  obtain ⟨fits, rostered, -⟩ := h
  exact ⟨session ▸ fits, rosterFits_of_same session roster rostered, fun offline => absurd (session ▸ offline) online⟩

/-- A line in use is not that of a station in OFFLINE. -/
theorem online_of_onLine {s : State} (quiet : quietOffline s) (used : s.onLine) : s.session.state ≠ .offline := by
  intro offline
  obtain ⟨line, flight⟩ := quiet offline
  rcases used with used | used | used | used
  · rw [line] at used
    exact used rfl
  · rw [line] at used
    exact used rfl
  · rw [line] at used
    exact used rfl
  · exact used flight

theorem online_of_receiving {s : State} {r : Reception} (h : stationFits s) (receiving : s.line.receive = .inFrame r) :
    s.session.state ≠ .offline :=
  online_of_onLine h.2.2 (.inl (by rw [receiving]; exact nofun))

/-- A new session state outside OFFLINE, with its timers, under the same record. -/
theorem stationFits_newState {s t : State} {state : StationState} (online : s.session.state ≠ .offline)
    (state_online : state ≠ .offline)
    (session : t.session = { s.session with
      state := state, listenWindow := t.session.listenWindow, presenceTimer := t.session.presenceTimer })
    (window : t.session.listenWindow.isSome = true ↔ state = .listening)
    (timer : t.session.presenceTimer.isSome = true ↔ state = .member) (roster : t.roster = s.roster)
    (h : stationFits s) : stationFits t := by
  obtain ⟨⟨range, present, frozen, -, -⟩, ⟨-, self⟩, -⟩ := h
  have record : t.session.record = s.session.record := by rw [session]
  have newState : t.session.state = state := by rw [session]
  have kept : t.session.frozen = s.session.frozen := by rw [session]
  refine ⟨⟨fun r hr => range r (record ▸ hr), fun _ => by rw [record]; exact present online, ?_, ?_, ?_⟩,
    ⟨fun offline => ?_, fun _ n => ?_⟩, fun offline => ?_⟩
  · rw [kept, newState]
    exact ⟨fun _ => state_online, fun _ => frozen.mpr online⟩
  · rw [newState]
    exact window
  · rw [newState]
    exact timer
  · exact absurd (newState ▸ offline) state_online
  · unfold ownNumber
    rw [roster, record]
    exact self online n
  · exact absurd (newState ▸ offline) state_online

theorem refuse_session (reason : RefusalReason) (s : State) : (refuse reason s).1.session =
    { s.session with state := .refused, listenWindow := none, presenceTimer := none } := rfl

theorem refuse_stationFits (reason : RefusalReason) {s : State} (online : s.session.state ≠ .offline) (h : stationFits s) :
    stationFits (refuse reason s).1 :=
  stationFits_newState (state := .refused) online nofun rfl ⟨nofun, nofun⟩ ⟨nofun, nofun⟩ rfl h

/-- In OFFLINE, with the line inactive, nothing in flight and every entry ABSENT, under a record in range. -/
theorem stationFits_of_offline {t : State} (range : ∀ r, t.session.record = some r → r.inRange = true)
    (session : t.session = { SessionController.initial with record := t.session.record })
    (roster : t.roster = Vector.replicate 32 RosterEntry.absentEntry)
    (line : t.line = { LineInterface.initial with clock := t.line.clock }) (flight : t.access.inFlight = none) :
    stationFits t := by
  have offline : t.session.state = .offline := by rw [session]; rfl
  refine ⟨⟨range, fun online => absurd offline online, ?_, ?_, ?_⟩, ⟨fun _ n => ?_, fun online => absurd offline online⟩,
    fun _ => ⟨line, flight⟩⟩
  · rw [session]
    simp [SessionController.initial]
  · rw [session]
    simp [SessionController.initial]
  · rw [session]
    simp [SessionController.initial]
  · rw [roster]
    simp

theorem leaveComplete_stationFits {s : State} (h : stationFits s) : stationFits (leaveComplete s).1 := by
  rw [leaveComplete_fst]
  refine stationFits_of_offline (fun r hr => ?_) ?_ (clearSession_roster _) ?_ rfl
  · rw [clearSession_session] at hr
    exact h.1.1 r hr
  · rw [clearSession_session]
    rfl
  · rw [clearSession_line]

theorem recordOf_inRange {args : List Byte} {r : Record} (h : recordOf args = some r) : r.inRange = true := by
  unfold recordOf at h
  split at h
  · split at h
    · dsimp only at h
      split at h
      · cases h
        assumption
      · cases h
    · cases h
  · cases h

/-- JOIN makes exactly the own entry SELF, in a roster of ABSENT ones (R56). -/
theorem joinWith_stationFits {s : State} {r : Record} (offline : s.session.state = .offline)
    (recorded : s.session.record = some r) (h : stationFits s) : stationFits (joinWith r s) := by
  obtain ⟨⟨range, -, -, -, timer⟩, ⟨absent, -⟩, -⟩ := h
  have number : ownNumber (joinWith r s) = r.station := by
    show ownNumber s = _
    unfold ownNumber
    rw [recorded]
  refine ⟨⟨range, fun _ => by show s.session.record.isSome = true; rw [recorded]; rfl, ?_, ?_, ?_⟩,
    ⟨nofun, fun _ n => ?_⟩, nofun⟩
  · exact ⟨fun _ => nofun, fun _ => rfl⟩
  · exact ⟨fun _ => rfl, fun _ => rfl⟩
  · show s.session.presenceTimer.isSome = true ↔ _
    rw [timer, offline]
    exact ⟨nofun, nofun⟩
  · rw [number]
    show ((upd s.roster r.station _)[n]).state = _ ↔ _
    rw [upd_getElem]
    split
    · rename_i same
      exact ⟨fun _ => same.symm, fun _ => rfl⟩
    · rename_i other
      rw [absent offline n]
      exact ⟨nofun, fun same => absurd same.symm other⟩

/-- A roster entry that is SELF exactly where it was. -/
theorem stationFits_updRoster {s : State} {x : Station} {f : RosterEntry → RosterEntry}
    (online : s.session.state ≠ .offline)
    (self : (f s.roster[x]).state = .selfEntry ↔ (s.roster[x]).state = .selfEntry) (h : stationFits s) :
    stationFits (s.updRoster x f) := by
  obtain ⟨fits, ⟨-, rostered⟩, -⟩ := h
  refine ⟨fits, ⟨fun offline => absurd offline online, fun _ n => ?_⟩, fun offline => absurd offline online⟩
  rw [updRoster_roster, upd_getElem]
  split
  · rename_i same
    subst same
    exact self.trans (rostered online x)
  · exact rostered online n

theorem silentPeer_stationFits {s : State} {x : Station} (present : (s.roster[x]).state = .present) (h : stationFits s) :
    stationFits (s.updRoster x fun e => { e with state := .silent, deadline := none }) := by
  refine stationFits_updRoster (fun offline => ?_) ?_ h
  · rw [h.2.1.1 offline x] at present
    cases present
  · rw [present]
    exact ⟨nofun, nofun⟩

theorem restartPresence_stationFits {s : State} (member : s.session.state = .member) (h : stationFits s) :
    stationFits (restartPresence s) := by
  refine stationFits_newState (s := s) (state := .member) ?_ nofun ?_ ?_ ⟨fun _ => rfl, fun _ => rfl⟩ rfl h
  · rw [member]
    exact nofun
  · rw [← member]
    rfl
  · show s.session.listenWindow.isSome = true ↔ _
    rw [h.1.2.2.2.1, member]

theorem presenceExpiry_stationFits {s : State} (running : s.session.presenceTimer.isSome = true) (h : stationFits s) :
    stationFits (presenceExpiry s) := by
  have member := h.1.2.2.2.2.mp running
  have restarted := restartPresence_stationFits member h
  unfold presenceExpiry
  dsimp only
  split
  · exact restarted
  · exact stationFits_of_same rfl rfl rfl rfl restarted

theorem jamOutcome_stationFits {s : State} {f : Flight} (flying : s.access.inFlight = some f) (h : stationFits s) :
    stationFits (jamOutcome f s).1 := by
  have online := online_of_onLine h.2.2 (.inr (.inr (.inr (by rw [flying]; exact nofun))))
  have landed : stationFits ((s.setLine s.line.afterJam).setAccess { s.access with inFlight := none }) :=
    stationFits_of_online online rfl rfl h
  unfold jamOutcome
  dsimp only
  generalize hu : (s.setLine s.line.afterJam).setAccess { s.access with inFlight := none } = u at landed ⊢
  have still : u.session.state ≠ .offline := hu ▸ online
  split
  · have removed : stationFits (removeItem u f.kind) := stationFits_of_same rfl rfl rfl rfl landed
    unfold abandon
    rw [andThen_fst]
    dsimp only
    unfold ownerAbandoned
    split
    · split
      · exact refuse_stationFits _ still removed
      · exact removed
    · exact removed
    · exact stationFits_of_same rfl rfl rfl rfl removed
    · rw [recallAbandoned_eq]
      exact stationFits_of_same rfl rfl rfl rfl removed
    · exact stationFits_of_same rfl rfl rfl rfl removed
  · rw [ownerCollided_eq]
    exact stationFits_of_same rfl rfl rfl rfl landed

theorem tick_stationFits {s : State} (h : stationFits s) : stationFits (tick s) := by
  obtain ⟨⟨range, present, frozen, window, timer⟩, ⟨absent, self⟩, quiet⟩ := h
  refine ⟨⟨range, present, frozen, ?_, ?_⟩, ⟨fun offline n => ?_, fun online n => ?_⟩, fun offline => ?_⟩
  · rw [tick_session, Timer.tick_isSome]
    exact window
  · rw [tick_session, Timer.tick_isSome]
    exact timer
  · rw [tick_roster, absent offline n]
    rfl
  · rw [tick_roster]
    exact self online n
  · obtain ⟨line, flight⟩ := quiet offline
    refine ⟨?_, flight⟩
    rw [tick_line, line]
    rfl

/-- The clauses for record, timers, roster and line. -/
theorem stationFits_kept : Kept stationFits where
  hardReset s h fits := stationFits_of_offline nofun rfl rfl rfl rfl
  hold s h fits := stationFits_of_same rfl rfl rfl rfl fits
  softReset s fits := stationFits_of_offline fits.1.1 rfl rfl rfl rfl
  tick s fits := tick_stationFits fits
  port s p _ _ fits := stationFits_of_same rfl rfl rfl rfl fits
  post s n fits := stationFits_of_same (post_session s n) (post_roster s n) (post_line s n) (by rw [post_access]) fits
  readNotice s n rest _ fits := stationFits_of_same rfl rfl rfl rfl fits
  line s x used _ fits := stationFits_of_online (online_of_onLine fits.2.2 used) rfl rfl fits
  access s a _ _ flight fits := stationFits_of_same (s := s) rfl rfl rfl flight fits
  rescore s n _ fits := stationFits_of_same rfl rfl rfl rfl fits
  countAttempt s k fits := stationFits_of_same rfl rfl rfl rfl fits
  startAttempt s it between _ _ _ fits := by
    have online := online_of_onLine fits.2.2 (.inl (by rw [between]; exact nofun))
    refine stationFits_of_online online ?_ ?_ fits
    · unfold startAttempt noteLatch
      cases it.kind <;> rfl
    · unfold startAttempt noteLatch
      cases it.kind <;> rfl
  jamOutcome s f flying _ fits := jamOutcome_stationFits flying fits
  leaveComplete s _ fits := leaveComplete_stationFits fits
  leaving s online fits :=
    stationFits_newState (state := .leaving) online nofun rfl ⟨nofun, nofun⟩ ⟨nofun, nofun⟩ rfl fits
  headerEvent s r r' rx receiving _ fits := by
    refine stationFits_of_online (online_of_receiving fits receiving) ?_ ?_ fits
    · unfold headerEvent matchingWalk
      rw [walk_eq]
      rfl
    · unfold headerEvent matchingWalk
      rw [walk_eq]
      rfl
  startClaiming s listening fits :=
    stationFits_newState (state := .claiming) (by rw [listening]; exact nofun) nofun rfl ⟨nofun, nofun⟩ (by
      show s.session.presenceTimer.isSome = true ↔ _
      rw [fits.1.2.2.2.2, listening]
      decide) rfl fits
  presenceExpiry s running fits := presenceExpiry_stationFits running fits
  silentPeer s x present fits := silentPeer_stationFits present fits
  goStale s k reason _ fits := stationFits_of_same rfl rfl rfl rfl fits
  setLimit s k limit fits := stationFits_of_same rfl rfl rfl rfl fits
  readSlot s k fits := stationFits_of_same rfl rfl rfl rfl fits
  requestRecall s topic o fits := by
    rw [requestRecall_eq]
    exact stationFits_of_same rfl rfl rfl rfl fits
  recallExpiry s p _ fits := by
    rw [recallExpiry_eq]
    exact stationFits_of_same rfl rfl rfl rfl fits
  recallOrigin s p _ fits := stationFits_of_same rfl rfl rfl rfl fits
  makeRecall s p topic o _ _ fits := stationFits_of_same rfl rfl rfl rfl fits
  periodicExpiry s i fits := by
    rw [periodicExpiry_eq]
    exact stationFits_of_same rfl rfl rfl rfl fits
  holdOff s i fits := stationFits_of_same rfl rfl rfl rfl fits
  configure s args r offline inRange fits := by
    obtain ⟨⟨-, -, frozen, window, timer⟩, ⟨absent, -⟩, quiet⟩ := fits
    exact ⟨⟨fun r' hr => by cases hr; exact recordOf_inRange inRange, fun online => absurd offline online, frozen, window,
      timer⟩, ⟨absent, fun online => absurd offline online⟩, quiet⟩
  join s r offline recorded fits := joinWith_stationFits offline recorded fits
  sub s i f fits := stationFits_of_same rfl rfl rfl rfl fits
  takeRecords s q n _ fits := stationFits_of_same rfl rfl rfl rfl fits
  clearOverflow s q fits := stationFits_of_same rfl rfl rfl rfl fits
  declare s i topic c m period value _ _ fits := by
    rw [declareAt_eq]
    exact stationFits_of_same rfl rfl rfl rfl fits
  write s i value _ fits := by
    rw [writeEntry_eq]
    exact stationFits_of_same rfl rfl rfl rfl fits
  withdraw s i _ fits := by
    rw [withdrawAt_eq]
    exact stationFits_of_same rfl rfl rfl rfl fits
  freeYielded s i _ fits := stationFits_of_same rfl rfl rfl rfl fits
  requestEpoch s _ fits := stationFits_of_same rfl rfl rfl rfl fits
  openBank s b _ _ fits := stationFits_of_same rfl rfl rfl rfl fits
  releaseBank s b _ fits := stationFits_of_same rfl rfl rfl rfl fits

/-! ## The end of a frame -/

/-- While the blocks act on a frame end the station is not in OFFLINE. -/
def onlineFits (s : State) : Prop := stationFits s ∧ s.session.state ≠ .offline

theorem onlineFits_of_same {s t : State} (session : t.session = s.session) (roster : t.roster = s.roster)
    (h : onlineFits s) : onlineFits t :=
  ⟨stationFits_of_online h.2 session roster h.1, session ▸ h.2⟩

theorem cleanEnd_onlineFits {s : State} (h : onlineFits s) : onlineFits (cleanEnd s) := by
  cases flying : s.access.inFlight with
  | none =>
    rw [cleanEnd_of_none flying]
    exact h
  | some f =>
    rw [cleanEnd_of_flight flying, ownerClean_eq]
    exact onlineFits_of_same (s := s) rfl rfl h

theorem restartPresence_onlineFits {s : State} (member : s.session.state = .member) (h : onlineFits s) :
    onlineFits (restartPresence s) := ⟨restartPresence_stationFits member h.1, h.2⟩

theorem enterMember_onlineFits {s : State} (claiming : s.session.state = .claiming) (h : onlineFits s) :
    onlineFits (enterMember s).1 := by
  have entered : onlineFits (restartPresence (s.setSession { s.session with state := .member })) := by
    refine ⟨stationFits_newState (s := s) (state := .member) h.2 nofun rfl ?_ ⟨fun _ => rfl, fun _ => rfl⟩ rfl h.1, nofun⟩
    show s.session.listenWindow.isSome = true ↔ _
    rw [h.1.1.2.2.2.1, claiming]
    exact ⟨nofun, nofun⟩
  unfold enterMember
  dsimp only
  generalize restartPresence _ = u at entered ⊢
  rw [announce_eq]
  exact onlineFits_of_same (s := u) (setPubs_session ..) (setPubs_roster ..) entered

theorem refuse_onlineFits (reason : RefusalReason) {s : State} (h : onlineFits s) : onlineFits (refuse reason s).1 :=
  ⟨refuse_stationFits reason h.2 h.1, nofun⟩

theorem defend_onlineFits {s : State} (h : onlineFits s) : onlineFits (defend s) := by
  rw [defend_eq]
  exact onlineFits_of_same rfl rfl h

theorem sessionAtFrame_onlineFits (own : Bool) (f : Frame) {s : State} (h : onlineFits s) :
    onlineFits (sessionAtFrame own f s).1 := by
  unfold sessionAtFrame
  split
  · unfold ownCleanEnd
    split
    · rename_i claiming _
      exact enterMember_onlineFits claiming h
    · rename_i member
      exact restartPresence_onlineFits member h
    · exact h
  · split
    · unfold foreignOwnNumber
      split
      · exact refuse_onlineFits _ h
      · exact refuse_onlineFits _ h
      · unfold answerDuplicate
        split
        · exact defend_onlineFits h
        · dsimp only
          split
          · exact refuse_onlineFits _ h
          · split <;> exact defend_onlineFits h
        all_goals exact defend_onlineFits h
      all_goals exact h
    · exact h

theorem RosterEntry.heard_selfEntry (e : RosterEntry) (stamp : Stamp) (deadline : Timer) :
    (e.heard stamp deadline).state = .selfEntry ↔ e.state = .selfEntry := by
  cases state : e.state <;> simp [RosterEntry.heard, state]

theorem rosterAtFrame_onlineFits (own : Bool) (f : Frame) {s : State} (h : onlineFits s) :
    onlineFits (rosterAtFrame own f s).1 := by
  have changed : ∀ {u : State} {x : Station} {g : RosterEntry → RosterEntry},
      ((g u.roster[x]).state = .selfEntry ↔ (u.roster[x]).state = .selfEntry) → onlineFits u →
      onlineFits (u.updRoster x g) := fun self hu => ⟨stationFits_updRoster hu.2 self hu.1, hu.2⟩
  have heard := changed (u := s) (x := f.source) (g := fun e => e.heard s.line.clock (silenceTime s))
    (RosterEntry.heard_selfEntry _ _ _) h
  have identified : ∀ (u : State) x caution last tag, onlineFits u → onlineFits (identifyPeer u x caution last tag).1 :=
    fun u x caution last tag hu => by
      have done := changed (u := u) (x := x) (g := fun e => e.identify caution last tag) Iff.rfl hu
      unfold identifyPeer
      dsimp only
      split
      · exact onlineFits_of_same rfl rfl done
      · exact done
  unfold rosterAtFrame
  split
  · exact changed Iff.rfl h
  · split
    · exact h
    · unfold hearPeer
      dsimp only
      split
      · rw [andThen_fst]
        exact identified _ _ _ _ _ heard
      · rw [andThen_fst]
        exact identified _ _ _ _ _ heard
      all_goals exact heard

theorem onlineFits_keptByBlocks : KeptByBlocks onlineFits where
  free s n h := onlineFits_of_same rfl rfl h
  post s n h := onlineFits_of_same (post_session s n) (post_roster s n) h
  resetBases s h := onlineFits_of_same rfl rfl h
  rescore s n _ h := onlineFits_of_same rfl rfl h
  releaseFrame s h := onlineFits_of_same (releaseFrame_session s) (releaseFrame_roster s) h
  accessAtFrame own f s h := by
    have based : onlineFits (setBase s f.cls f.source) := onlineFits_of_same rfl rfl h
    unfold accessAtFrame
    dsimp only
    split
    · exact onlineFits_of_same rfl rfl (cleanEnd_onlineFits based)
    · split
      · exact onlineFits_of_same rfl rfl based
      · exact based
  sessionAtFrame own f s h := sessionAtFrame_onlineFits own f h
  rosterAtFrame own f s h := rosterAtFrame_onlineFits own f h
  acceptanceAtFrame own headerSeen f s h := by
    have changed := acceptanceAtFrame_changed own headerSeen f s
    exact onlineFits_of_same changed.session changed.roster h
  publicationAtFrame own f s h := by
    rw [publicationAtFrame_eq]
    exact onlineFits_of_same rfl rfl h
  continuityAtFrame own f s h := by
    rw [continuityAtFrame_eq]
    exact onlineFits_of_same rfl rfl h
  epochAtFrame own f s h := by
    rw [epochAtFrame_eq]
    exact onlineFits_of_same rfl rfl h

theorem stationFits_keptAtEnd : KeptAtEnd stationFits :=
  onlineFits_keptByBlocks.atEnd stationFits_kept
    (fun s _ _ receiving fits =>
      onlineFits_of_same (s := s) rfl rfl ⟨fits, online_of_receiving fits receiving⟩) fun _ h => h.1

/-- Settles O58: a line in use belongs to a station outside OFFLINE, so that the events of the line leave the three invariants,
and each change of the station state sets its timers, its roster and its line with it. -/
theorem sessionAndRosterStayFit : Obligations.SessionAndRosterStayFit := fun _ _ fits rostered quiet next =>
  stationFits_kept.step stationFits_keptAtEnd (fun _ _ _ fits => stationFits_of_same rfl rfl rfl rfl fits) next
    ⟨fits, rostered, quiet⟩

end Sys2Proof.Machine
end

section
/-! What the blocks leave of each other at a frame end: one equation per block and part. -/

namespace Sys2Proof.Machine

/-! ## Blocks that change neither the roster nor what the header-complete event set up -/

/-- What the session, the Access Controller, the line and the Publication, Continuity and Epoch Units leave of the rest. -/
structure OwnersChanged (s t : State) : Prop where
  roster : t.roster = s.roster := by rfl
  accept : t.accept = s.accept := by rfl
  store : t.store = s.store := by rfl
  hold : t.hold = s.hold := by rfl

namespace OwnersChanged
variable {s t u : State}

theorem trans (h : OwnersChanged s t) (h' : OwnersChanged t u) : OwnersChanged s u :=
  ⟨h'.roster.trans h.roster, h'.accept.trans h.accept, h'.store.trans h.store, h'.hold.trans h.hold⟩

theorem refl (s : State) : OwnersChanged s s := {}

theorem of_session (h : t = s.setSession t.session) : OwnersChanged s t := by
  rw [h]
  exact {}

theorem of_access (h : t = s.setAccess t.access) : OwnersChanged s t := by
  rw [h]
  exact {}

theorem of_line (h : t = s.setLine t.line) : OwnersChanged s t := by
  rw [h]
  exact {}

theorem of_pubs (h : t = s.setPubs t.pubs) : OwnersChanged s t := by
  rw [h]
  exact {}

theorem of_cont (h : t = s.setCont t.cont) : OwnersChanged s t := by
  rw [h]
  exact {}

theorem of_contPubs (h : t = (s.setCont t.cont).setPubs t.pubs) : OwnersChanged s t := by
  rw [h]
  exact {}

theorem of_epoch (h : t = s.setEpoch t.epoch) : OwnersChanged s t := by
  rw [h]
  exact {}

theorem of_epochPubs (h : t = (s.setEpoch t.epoch).setPubs t.pubs) : OwnersChanged s t := by
  rw [h]
  exact {}

end OwnersChanged

theorem refuse_changed (reason : RefusalReason) (s : State) : OwnersChanged s (refuse reason s).1 := by
  have base : OwnersChanged s (refusedBase s) :=
    ((OwnersChanged.of_session (s := s) rfl).trans (.of_pubs (t := stopSending _) rfl)).trans (.of_access rfl)
  rw [refuse_fst]
  exact (base.trans (.of_cont rfl)).trans (.of_epoch rfl)

theorem enterMember_changed (s : State) : OwnersChanged s (enterMember s).1 := by
  unfold enterMember
  dsimp only
  exact ((OwnersChanged.of_session (s := s) rfl).trans (.of_session (t := restartPresence _) rfl)).trans
    (.of_pubs (announce_eq _))

theorem answerDuplicate_changed (f : Frame) (s : State) : OwnersChanged s (answerDuplicate f s).1 := by
  have defended : OwnersChanged s (defend s) := .of_pubs (defend_eq s)
  unfold answerDuplicate
  split
  · exact defended
  · dsimp only
    split
    · exact refuse_changed _ s
    · split <;> exact defended
  all_goals exact defended

theorem sessionAtFrame_changed (own : Bool) (f : Frame) (s : State) : OwnersChanged s (sessionAtFrame own f s).1 := by
  unfold sessionAtFrame
  split
  · unfold ownCleanEnd
    split
    · exact enterMember_changed s
    · exact .of_session rfl
    · exact .refl s
  · split
    · unfold foreignOwnNumber
      split
      · exact refuse_changed _ s
      · exact refuse_changed _ s
      · exact answerDuplicate_changed f s
      all_goals exact .refl s
    · exact .refl s

theorem cleanEnd_changed (s : State) : OwnersChanged s (cleanEnd s) := by
  cases flying : s.access.inFlight with
  | none =>
    rw [cleanEnd_of_none flying]
    exact .refl s
  | some f =>
    rw [cleanEnd_of_flight flying]
    exact (((OwnersChanged.of_pubs (s := s) (t := removeItem s f.kind) rfl).trans (.of_access rfl)).trans
      (.of_line rfl)).trans (.of_contPubs (ownerClean_eq f _))

theorem lowerScore_eq (s : State) (n : Nat) : (lowerScore s n).1 = s.setAccess (lowerScore s n).1.access := rfl

theorem accessAtFrame_changed (own : Bool) (f : Frame) (s : State) : OwnersChanged s (accessAtFrame own f s).1 := by
  have based : OwnersChanged s (setBase s f.cls f.source) := .of_access rfl
  unfold accessAtFrame
  dsimp only
  split
  · exact (based.trans (cleanEnd_changed _)).trans (.of_access (lowerScore_eq _ _))
  · split
    · exact based.trans (.of_access (lowerScore_eq _ _))
    · exact based

theorem publicationAtFrame_changed (own : Bool) (f : Frame) (s : State) :
    OwnersChanged s (publicationAtFrame own f s).1 := .of_pubs (publicationAtFrame_eq own f s)

theorem continuityAtFrame_changed (own : Bool) (f : Frame) (s : State) :
    OwnersChanged s (continuityAtFrame own f s).1 := .of_contPubs (continuityAtFrame_eq own f s)

theorem epochAtFrame_changed (own : Bool) (f : Frame) (s : State) : OwnersChanged s (epochAtFrame own f s).1 :=
  .of_epochPubs (epochAtFrame_eq own f s)

theorem rosterAtFrame_accept (own : Bool) (f : Frame) (s : State) : (rosterAtFrame own f s).1.accept = s.accept := by
  rw [rosterAtFrame_eq, setCont_accept, setRoster_accept]
theorem rosterAtFrame_store (own : Bool) (f : Frame) (s : State) : (rosterAtFrame own f s).1.store = s.store := by
  rw [rosterAtFrame_eq, setCont_store, setRoster_store]
theorem rosterAtFrame_session (own : Bool) (f : Frame) (s : State) : (rosterAtFrame own f s).1.session = s.session := by
  rw [rosterAtFrame_eq, setCont_session, setRoster_session]

/-! ## The blocks in turn -/

/-- The states that the blocks leave one after the other at a CLEAN frame end (log 16). -/
def afterSession (own : Bool) (f : Frame) (s : State) : State := (sessionAtFrame own f (accessAtFrame own f s).1).1

def afterRoster (own : Bool) (f : Frame) (s : State) : State := (rosterAtFrame own f (afterSession own f s)).1

def afterAcceptance (own headerSeen : Bool) (f : Frame) (s : State) : State :=
  (acceptanceAtFrame own headerSeen f (afterRoster own f s)).1

def afterBlocks (own headerSeen : Bool) (f : Frame) (s : State) : State :=
  (epochAtFrame own f (continuityAtFrame own f (publicationAtFrame own f (afterAcceptance own headerSeen f s)).1).1).1

/-- A CLEAN frame end is the blocks in turn, and beside them only the port and the count of free choices change. -/
theorem cleanFrame_eq (own headerSeen : Bool) (f : Frame) (s : State) :
    ∃ ns n, cleanFrame own headerSeen f s = postAll { afterBlocks own headerSeen f s with free := n } ns :=
  let ⟨ns, n, _, acted⟩ := actTogether_eq _ s
  ⟨ns, n, acted⟩

theorem afterSession_changed (own : Bool) (f : Frame) (s : State) : OwnersChanged s (afterSession own f s) :=
  (accessAtFrame_changed own f s).trans (sessionAtFrame_changed own f _)

theorem afterBlocks_changed (own headerSeen : Bool) (f : Frame) (s : State) :
    OwnersChanged (afterAcceptance own headerSeen f s) (afterBlocks own headerSeen f s) :=
  ((publicationAtFrame_changed own f _).trans (continuityAtFrame_changed own f _)).trans (epochAtFrame_changed own f _)

end Sys2Proof.Machine
end

section
/-! The reservation list and the cell pool (R70 to R73, R82, R86 to R91). -/

namespace Sys2Proof.Machine

/-! ## Counting cells -/

theorem MessageStore.cellsUsed_eq_sum (m : MessageStore) : m.cellsUsed = ∑ q : QueueNo, (m.queues[q]).cells :=
  (Fin.sum_univ_def _).symm

theorem MessageStore.cellsUsed_upd {m m' : MessageStore} {q : QueueNo} {f : ReceiveQueue → ReceiveQueue}
    (queues : m'.queues = upd m.queues q f) :
    m'.cellsUsed + (m.queues[q]).cells = m.cellsUsed + (f m.queues[q]).cells := by
  have others : ∑ i ∈ Finset.univ.erase q, (m'.queues[i]).cells = ∑ i ∈ Finset.univ.erase q, (m.queues[i]).cells := by
    refine Finset.sum_congr rfl fun i hi => ?_
    rw [queues, upd_getElem, if_neg (Finset.ne_of_mem_erase hi).symm]
  have self : (m'.queues[q]).cells = (f m.queues[q]).cells := by rw [queues, upd_getElem, if_pos rfl]
  rw [cellsUsed_eq_sum, cellsUsed_eq_sum,
    ← Finset.add_sum_erase Finset.univ (fun i : QueueNo => (m'.queues[i]).cells) (Finset.mem_univ q),
    ← Finset.add_sum_erase Finset.univ (fun i : QueueNo => (m.queues[i]).cells) (Finset.mem_univ q), others, self]
  omega

theorem MessageStore.cellsUsed_congr {m m' : MessageStore} (queues : m'.queues = m.queues) : m'.cellsUsed = m.cellsUsed := by
  unfold cellsUsed
  rw [queues]

/-- The cells of the records. -/
def MessageStore.storedCells (m : MessageStore) : Nat := ∑ q : QueueNo, (m.queues[q]).records.length

theorem MessageStore.reservedCells_eq_sum (m : MessageStore) :
    m.reservedCells = ∑ q : QueueNo, (m.queues[q]).reserved.toNat := by
  unfold reservedCells
  rw [Fin.sum_univ_def]
  induction List.finRange 8 with
  | nil => rfl
  | cons q qs ih =>
    cases reserved : (m.queues[q]).reserved <;> simp_all [Nat.add_comm]

theorem MessageStore.cellsUsed_eq_add (m : MessageStore) : m.cellsUsed = m.storedCells + m.reservedCells := by
  rw [cellsUsed_eq_sum, reservedCells_eq_sum, storedCells, ← Finset.sum_add_distrib]
  rfl

theorem MessageStore.reservedCells_of_none {m : MessageStore} (none : ∀ q : QueueNo, (m.queues[q]).reserved = false) :
    m.reservedCells = 0 := by
  rw [reservedCells_eq_sum]
  exact Finset.sum_eq_zero fun q _ => by rw [none q]; rfl

/-! ## The reservations of a list of targets -/

/-- The targets of `rs` differ and are exactly those that hold a reservation. -/
def HoldsFor (rs : List Reserved) (s : State) : Prop :=
  (rs.Pairwise fun a b => a.target ≠ b.target) ∧
    ∀ q : QueueNo, (s.store.queues[q]).reserved = true ↔ ∃ r ∈ rs, r.target = .queue q

/-- No cell is won or lost, and no queue takes one. -/
structure PoolKept (s t : State) : Prop where
  cells : t.store.free + t.store.cellsUsed = s.store.free + s.store.cellsUsed
  within : ∀ q : QueueNo, (t.store.queues[q]).cells ≤ (s.store.queues[q]).cells

theorem PoolKept.refl (s : State) : PoolKept s s := ⟨rfl, fun _ => le_rfl⟩

theorem PoolKept.trans {s t u : State} (h : PoolKept s t) (h' : PoolKept t u) : PoolKept s u :=
  ⟨h'.cells.trans h.cells, fun q => (h'.within q).trans (h.within q)⟩

theorem PoolKept.of_same {s t : State} (queues : t.store.queues = s.store.queues) (free : t.store.free = s.store.free) :
    PoolKept s t :=
  ⟨by rw [free, MessageStore.cellsUsed_congr queues], fun q => by rw [queues]⟩

/-- One queue changed, the pool with it. -/
theorem PoolKept.of_upd {s t : State} {q : QueueNo} {f : ReceiveQueue → ReceiveQueue}
    (queues : t.store.queues = upd s.store.queues q f)
    (free : t.store.free + (f s.store.queues[q]).cells = s.store.free + (s.store.queues[q]).cells)
    (within : (f s.store.queues[q]).cells ≤ (s.store.queues[q]).cells) : PoolKept s t := by
  have counted := MessageStore.cellsUsed_upd queues
  refine ⟨by omega, fun p => ?_⟩
  rw [queues, upd_getElem]
  split
  · rename_i same
    exact same ▸ within
  · rfl

theorem PoolKept.poolFits {s t : State} (kept : PoolKept s t) (record : t.session.record = s.session.record)
    (h : poolFits s) : poolFits t := by
  refine ⟨kept.cells.trans h.1, fun q => ((kept.within q).trans (h.2 q)).trans (le_of_eq ?_)⟩
  unfold quotaOf
  rw [record]

theorem HoldsFor.of_same {rs : List Reserved} {s t : State} (queues : t.store.queues = s.store.queues)
    (h : HoldsFor rs s) : HoldsFor rs t :=
  ⟨h.1, by rw [queues]; exact h.2⟩

/-- Where a target gives up its reservation, the others keep theirs. -/
theorem HoldsFor.tail {r : Reserved} {rs : List Reserved} {s t : State}
    (given : ∀ q : QueueNo, (t.store.queues[q]).reserved =
      if r.target = .queue q then false else (s.store.queues[q]).reserved)
    (h : HoldsFor (r :: rs) s) : HoldsFor rs t := by
  obtain ⟨distinct, holds⟩ := h
  obtain ⟨apart, distinct'⟩ := List.pairwise_cons.mp distinct
  refine ⟨distinct', fun q => ?_⟩
  rw [given q]
  split
  · rename_i same
    refine ⟨nofun, fun ⟨x, hx, target⟩ => absurd (same.trans target.symm) (apart x hx)⟩
  · rename_i other
    rw [holds q]
    refine ⟨fun ⟨x, hx, target⟩ => ?_, fun ⟨x, hx, target⟩ => ⟨x, List.mem_cons_of_mem r hx, target⟩⟩
    obtain rfl | hx := List.mem_cons.mp hx
    · exact absurd target other
    · exact ⟨x, hx, target⟩

theorem HoldsFor.head {r : Reserved} {rs : List Reserved} {s : State} (h : HoldsFor (r :: rs) s) {q : QueueNo}
    (target : r.target = .queue q) : (s.store.queues[q]).reserved = true :=
  (h.2 q).mpr ⟨r, List.mem_cons_self, target⟩

theorem HoldsFor.none {s : State} (h : HoldsFor [] s) (q : QueueNo) : (s.store.queues[q]).reserved = false := by
  rw [← Bool.not_eq_true, h.2 q]
  rintro ⟨x, hx, -⟩
  exact List.not_mem_nil hx

theorem holdsFor_nil {s : State} (none : ∀ q : QueueNo, (s.store.queues[q]).reserved = false) : HoldsFor [] s :=
  ⟨.nil, fun q => by rw [none q]; exact ⟨nofun, fun ⟨_, hx, _⟩ => absurd hx List.not_mem_nil⟩⟩

/-! ## Giving a target back and settling it -/

/-- A queue without its reservation. -/
theorem updQueue_reserved_false {s t : State} {q : QueueNo} {f : ReceiveQueue → ReceiveQueue}
    (queues : t.store.queues = upd s.store.queues q f) (released : ∀ x, (f x).reserved = false) (p : QueueNo) :
    (t.store.queues[p]).reserved = if Target.queue q = .queue p then false else (s.store.queues[p]).reserved := by
  rw [queues, upd_getElem]
  by_cases same : q = p
  · rw [if_pos same, if_pos (by rw [same]), released]
  · rw [if_neg same, if_neg (by simpa using same)]

/-- Giving a reserved target back. -/
theorem releaseTarget_holdsFor {r : Reserved} {rs : List Reserved} {s : State} (h : HoldsFor (r :: rs) s) :
    HoldsFor rs (releaseTarget s r.target) ∧ PoolKept s (releaseTarget s r.target) := by
  cases target : r.target with
  | slot k => exact ⟨h.tail fun q => by rw [target]; rfl, .refl s⟩
  | queue q =>
    have reserved := h.head target
    have cells : (s.store.queues[q]).cells = (s.store.queues[q]).records.length + 1 := by
      unfold ReceiveQueue.cells
      rw [reserved]
      rfl
    refine ⟨h.tail ?_, .of_upd (q := q) (f := fun x => { x with reserved := false }) rfl ?_ ?_⟩
    · rw [target]
      exact updQueue_reserved_false (f := fun x => { x with reserved := false }) rfl fun _ => rfl
    · show s.store.free + 1 + (s.store.queues[q]).records.length = _
      omega
    · show (s.store.queues[q]).records.length ≤ _
      omega

/-- Settling a reserved target. -/
theorem settleTarget_holdsFor {own : Bool} {x : Station} {topic : Topic} {seq : SeqNo} {a b : Bool} {payload : List Byte}
    {c : Option Classification} {r : Reserved} {rs : List Reserved} {s : State} (h : HoldsFor (r :: rs) s) :
    HoldsFor rs (settleTarget own x topic seq a b payload c s r) ∧
      PoolKept s (settleTarget own x topic seq a b payload c s r) := by
  have slot : ∀ {k g}, r.target = .slot k → HoldsFor rs (s.updSlot k g) ∧ PoolKept s (s.updSlot k g) := fun target =>
    ⟨h.tail fun q => by rw [target]; rfl, .of_same rfl rfl⟩
  unfold settleTarget
  split
  · split
    · rename_i q target
      have reserved := h.head target
      have cells : (s.store.queues[q]).cells = (s.store.queues[q]).records.length + 1 := by
        unfold ReceiveQueue.cells
        rw [reserved]
        rfl
      generalize ({ topic := topic, source := x, seq := seq, .. } : QueueRecord) = record
      have longer : (({ (s.store.queues[q]) with
          records := (s.store.queues[q]).records ++ [record], reserved := false } : ReceiveQueue)).cells =
          (s.store.queues[q]).cells := by
        rw [cells]
        unfold ReceiveQueue.cells
        simp
      refine ⟨h.tail ?_, .of_upd (q := q) (f := fun x => { x with records := x.records ++ [record], reserved := false })
        rfl ?_ (le_of_eq longer)⟩
      · rw [target]
        exact updQueue_reserved_false (f := fun x => { x with records := x.records ++ [record], reserved := false }) rfl
          fun _ => rfl
      · rw [longer]
        rfl
    · rename_i k target
      exact slot target
  · split
    · rename_i k target _
      exact slot target
    · exact releaseTarget_holdsFor h

/-- Giving every reserved target back. -/
theorem releaseAll_holdsFor {rs : List Reserved} {s : State} (h : HoldsFor rs s) :
    HoldsFor [] (rs.foldl (fun s r => releaseTarget s r.target) s) ∧
      PoolKept s (rs.foldl (fun s r => releaseTarget s r.target) s) := by
  induction rs generalizing s with
  | nil => exact ⟨h, .refl s⟩
  | cons r rs ih =>
    obtain ⟨held, pool⟩ := releaseTarget_holdsFor h
    obtain ⟨held', pool'⟩ := ih held
    exact ⟨held', pool.trans pool'⟩

theorem settleAll_holdsFor {own : Bool} {x : Station} {topic : Topic} {seq : SeqNo} {a b : Bool} {payload : List Byte}
    {c : Option Classification} {rs : List Reserved} {s : State} (h : HoldsFor rs s) :
    HoldsFor [] (rs.foldl (settleTarget own x topic seq a b payload c) s) ∧
      PoolKept s (rs.foldl (settleTarget own x topic seq a b payload c) s) := by
  induction rs generalizing s with
  | nil => exact ⟨h, .refl s⟩
  | cons r rs ih =>
    obtain ⟨held, pool⟩ := settleTarget_holdsFor (own := own) (x := x) (topic := topic) (seq := seq) (a := a) (b := b)
      (payload := payload) (c := c) h
    obtain ⟨held', pool'⟩ := ih held
    exact ⟨held', pool.trans pool'⟩

/-! ## Closing the frame -/

/-- The reservation list is empty and so are the reservations, with no cell won or lost. -/
def Closed (s t : State) : Prop := t.accept.plan = Plan.empty ∧ HoldsFor [] t ∧ PoolKept s t

@[simp] theorem closeFrame_store (s : State) : (closeFrame s).store = s.store := by rw [closeFrame_eq, setAccept_store]
theorem closeFrame_plan (s : State) : (closeFrame s).accept.plan = Plan.empty := by unfold closeFrame; rw [setAccept_accept]

theorem closeFrame_closed {s u : State} (h : HoldsFor [] u ∧ PoolKept s u) : Closed s (closeFrame u) := by
  have store := closeFrame_store u
  refine ⟨closeFrame_plan u, ?_⟩
  generalize closeFrame u = t at store ⊢
  exact ⟨h.1.of_same (by rw [store]), h.2.trans (.of_same (by rw [store]) (by rw [store]))⟩

theorem releaseFrame_closed {s : State} (h : HoldsFor s.accept.plan.targets s) : Closed s (releaseFrame s) := by
  unfold releaseFrame
  exact closeFrame_closed (releaseAll_holdsFor h)

theorem recordMark_queues {s : State} {rs : List Reserved} (h : HoldsFor rs s) :
    HoldsFor rs (recordMark s).1 ∧ PoolKept s (recordMark s).1 := by
  unfold recordMark
  split
  · rename_i q reason _
    have reserved : ∀ p : QueueNo, ((recordOverflow s q reason).1.store.queues[p]).reserved =
        (s.store.queues[p]).reserved := fun p => by
      unfold recordOverflow
      rw [updQueue_store, upd_getElem]
      split
      · rename_i same
        subst same
        rfl
      · rfl
    refine ⟨⟨h.1, fun p => by rw [reserved p]; exact h.2 p⟩, ?_⟩
    exact .of_upd (q := q)
      (f := fun x => { x with dropped := min 255 (x.dropped + 1), lastReason := some reason, overflow := true }) rfl rfl le_rfl
  · exact ⟨h, .refl s⟩

theorem settleUpdate_closed {own : Bool} {x : Station} {topic : Topic} {seq : SeqNo} {a b : Bool} {payload : List Byte}
    {s : State} (h : HoldsFor s.accept.plan.targets s) : Closed s (settleUpdate own x topic seq a b payload s).1 := by
  unfold settleUpdate
  dsimp only
  generalize frameClassification s x topic seq a = c
  have tracked : trackClassified s x topic seq c = s.setCont (trackClassified s x topic seq c).cont := by
    cases c <;> rfl
  generalize trackClassified s x topic seq c = u at tracked ⊢
  have queues : u.store = s.store := by rw [tracked, setCont_store]
  have plan : u.accept = s.accept := by rw [tracked, setCont_accept]
  rw [plan]
  obtain ⟨held, pool⟩ := settleAll_holdsFor (own := own) (x := x) (topic := topic) (seq := seq) (a := a) (b := b)
    (payload := payload) (c := c) (h.of_same (t := u) (by rw [queues]))
  obtain ⟨held', pool'⟩ := recordMark_queues held
  exact closeFrame_closed ⟨held', ((PoolKept.of_same (by rw [queues]) (by rw [queues])).trans pool).trans pool'⟩

/-- At a CLEAN frame end that had a header-complete event the frame is closed. -/
theorem acceptanceAtFrame_closed {own : Bool} {f : Frame} {s : State} (h : HoldsFor s.accept.plan.targets s) :
    Closed s (acceptanceAtFrame own true f s).1 := by
  unfold acceptanceAtFrame
  rw [if_pos rfl]
  split
  · exact settleUpdate_closed h
  all_goals exact releaseFrame_closed h

end Sys2Proof.Machine
end

section
/-! The reservation list and the pool fit each other after every step (R70, R72, R82, R86, R87). -/

namespace Sys2Proof.Machine

/-! ## The matching walk -/

/-- The reservation list names exactly the reservations, and the pool fits. -/
def reservesFit (s : State) : Prop := HoldsFor s.accept.plan.targets s ∧ poolFits s

theorem shareTarget_targets (s : State) (i : SubIndex) (t : Target) :
    (shareTarget s i t).accept.plan.targets =
      s.accept.plan.targets.map fun r => if r.target = t then { r with sharers := r.sharers ++ [i] } else r := rfl

theorem HoldsFor.map {rs : List Reserved} {f : Reserved → Reserved} {s : State} (target : ∀ r, (f r).target = r.target)
    (h : HoldsFor rs s) : HoldsFor (rs.map f) s := by
  refine ⟨List.pairwise_map.mpr (h.1.imp fun apart => by rwa [target, target]), fun q => (h.2 q).trans ?_⟩
  simp only [List.mem_map, exists_exists_and_eq_and, target]

theorem HoldsFor.append_slot {rs : List Reserved} {s : State} {k : SlotNo} {i : SubIndex}
    (new : ∀ r ∈ rs, r.target ≠ .slot k) (h : HoldsFor rs s) :
    HoldsFor (rs ++ [{ target := .slot k, reserver := i, sharers := [] }]) s := by
  refine ⟨List.pairwise_append.mpr ⟨h.1, List.pairwise_singleton _ _, fun r hr x hx => ?_⟩, fun q => (h.2 q).trans ?_⟩
  · rw [List.mem_singleton.mp hx]
    exact new r hr
  · simp

theorem HoldsFor.append_queue {rs : List Reserved} {s t : State} {q : QueueNo} {i : SubIndex}
    (new : ∀ r ∈ rs, r.target ≠ .queue q)
    (queues : t.store.queues = upd s.store.queues q fun x => { x with reserved := true }) (h : HoldsFor rs s) :
    HoldsFor (rs ++ [{ target := .queue q, reserver := i, sharers := [] }]) t := by
  refine ⟨List.pairwise_append.mpr ⟨h.1, List.pairwise_singleton _ _, fun r hr x hx => ?_⟩, fun p => ?_⟩
  · rw [List.mem_singleton.mp hx]
    exact new r hr
  · rw [queues, upd_getElem]
    split
    · rename_i same
      simp [same]
    · rename_i other
      rw [h.2 p]
      simp [other]

theorem noRoom_none {s : State} {q : QueueNo} (room : noRoom s q = none) :
    (s.store.queues[q]).cells < quotaOf s q ∧ s.store.free ≠ 0 := by
  unfold noRoom at room
  split at room
  · cases room
  · dsimp only at room
    split at room
    · cases room
    · rename_i within
      split at room
      · cases room
      · rename_i free
        exact ⟨Nat.not_le.mp within, free⟩

/-- A reserved queue takes one cell from the pool. -/
theorem poolFits_reserve {s t : State} {q : QueueNo} (room : noRoom s q = none)
    (unreserved : (s.store.queues[q]).reserved = false)
    (queues : t.store.queues = upd s.store.queues q fun x => { x with reserved := true })
    (free : t.store.free = s.store.free - 1) (session : t.session = s.session) (h : poolFits s) : poolFits t := by
  obtain ⟨within, positive⟩ := noRoom_none room
  obtain ⟨cells, quota⟩ := h
  have counted := MessageStore.cellsUsed_upd queues
  have before : (s.store.queues[q]).cells = (s.store.queues[q]).records.length := by
    unfold ReceiveQueue.cells
    rw [unreserved]
    rfl
  have after : ({ (s.store.queues[q]) with reserved := true } : ReceiveQueue).cells =
      (s.store.queues[q]).records.length + 1 := rfl
  rw [after] at counted
  refine ⟨by omega, fun p => ?_⟩
  have same_quota : quotaOf t p = quotaOf s p := by
    unfold quotaOf
    rw [session]
  rw [queues, upd_getElem, same_quota]
  split
  · rename_i same
    subst same
    rw [after]
    omega
  · exact quota p

theorem poolFits_of_same {s t : State} (queues : t.store.queues = s.store.queues) (free : t.store.free = s.store.free)
    (record : t.session.record = s.session.record) (h : poolFits s) : poolFits t :=
  (PoolKept.of_same queues free).poolFits record h

theorem visit_reservesFit (header : Header) {s : State} (i : SubIndex) (h : reservesFit s) :
    reservesFit (visit header s i).1 := by
  unfold visit
  dsimp only
  split
  · split
    · refine ⟨?_, poolFits_of_same rfl rfl rfl h.2⟩
      rw [shareTarget_targets]
      refine HoldsFor.map (fun r => ?_) (h.1.of_same rfl)
      split <;> rfl
    · rename_i unlisted
      have new : ∀ r ∈ s.accept.plan.targets, r.target ≠ (s.accept.table[i]).target := fun r hr same =>
        unlisted (List.any_eq_true.mpr ⟨r, hr, by simpa using same⟩)
      generalize (s.accept.table[i]).target = target at new
      cases target with
      | slot k => exact ⟨(h.1.of_same rfl).append_slot new, poolFits_of_same rfl rfl rfl h.2⟩
      | queue q =>
        dsimp only
        split
        · rename_i room
          have unreserved : (s.store.queues[q]).reserved = false := by
            rw [← Bool.not_eq_true, h.1.2 q]
            rintro ⟨r, hr, target⟩
            exact new r hr target
          exact ⟨h.1.append_queue new rfl, poolFits_reserve room unreserved rfl rfl rfl h.2⟩
        · rename_i reason _
          refine ⟨?_, poolFits_of_same rfl rfl rfl h.2⟩
          unfold missTarget
          dsimp only
          split <;> exact h.1.of_same rfl
  · exact h

theorem walk_reservesFit (header : Header) (is : List SubIndex) {s : State} (h : reservesFit s) :
    reservesFit (walk header is s) := by
  induction is generalizing s with
  | nil => exact h
  | cons i is ih =>
    unfold walk
    dsimp only
    split
    · exact ih (visit_reservesFit header i h)
    · exact visit_reservesFit header i h

end Sys2Proof.Machine
end

section
/-! The reservation list, the pool and the inactive line after every step: the clauses, and O59. -/

namespace Sys2Proof.Machine

/-! ## A line in OFFLINE -/

theorem quietOffline_of_same {s t : State} (state : t.session.state = s.session.state) (line : t.line = s.line)
    (flight : t.access.inFlight = s.access.inFlight) (h : quietOffline s) : quietOffline t := by
  unfold quietOffline
  rw [state, line, flight]
  exact h

theorem quietOffline_of_online {t : State} (online : t.session.state ≠ .offline) : quietOffline t :=
  fun offline => absurd offline online

theorem clearSession_quietOffline (s : State) : quietOffline (clearSession s) := by
  intro _
  refine ⟨?_, rfl⟩
  rw [clearSession_line]

/-- What a step does to the item of an attempt that has ended leaves session state and record; a refusal leaves the
record. -/
theorem jamOutcome_online {s : State} (f : Flight) (online : s.session.state ≠ .offline) :
    (jamOutcome f s).1.session.state ≠ .offline := by
  unfold jamOutcome
  dsimp only
  generalize hu : (s.setLine s.line.afterJam).setAccess { s.access with inFlight := none } = u
  have still : u.session.state ≠ .offline := hu ▸ online
  split
  · unfold abandon
    rw [andThen_fst]
    dsimp only
    unfold ownerAbandoned
    split
    · split
      · rw [refuse_session]
        exact nofun
      · exact still
    · exact still
    · exact still
    · rw [recallAbandoned_eq]
      exact still
    · exact still
  · rw [ownerCollided_eq]
    exact still

theorem startAttempt_session (s : State) (it : Item) : (startAttempt s it).session = s.session := by
  unfold startAttempt noteLatch
  cases it.kind <;> rfl

theorem headerEvent_session (s : State) (r : Reception) (rx : Receiver) : (headerEvent s r rx).session = s.session := by
  unfold headerEvent matchingWalk
  rw [walk_eq]
  rfl

theorem quietOffline_kept : Kept quietOffline where
  hardReset s h _ := fun _ => ⟨rfl, rfl⟩
  hold s h quiet := quiet
  softReset s _ := fun _ => ⟨rfl, rfl⟩
  tick s quiet := fun offline => by
    obtain ⟨line, flight⟩ := quiet offline
    refine ⟨?_, flight⟩
    rw [tick_line, line]
    rfl
  port s p _ _ quiet := quiet
  post s n quiet := quietOffline_of_same (by rw [post_session]) (post_line s n) (by rw [post_access]) quiet
  readNotice s n rest _ quiet := quiet
  line s x used _ quiet := quietOffline_of_online (t := s.setLine x) (online_of_onLine (s := s) quiet used)
  access s a _ _ flight quiet := quietOffline_of_same (s := s) rfl rfl flight quiet
  rescore s n _ quiet := quietOffline_of_same rfl rfl rfl quiet
  countAttempt s k quiet := quietOffline_of_same rfl rfl rfl quiet
  startAttempt s it between _ _ _ quiet := quietOffline_of_online (by
    rw [startAttempt_session]
    exact online_of_onLine quiet (.inl (by rw [between]; exact nofun)))
  jamOutcome s f flying _ quiet := quietOffline_of_online
    (jamOutcome_online f (online_of_onLine quiet (.inr (.inr (.inr (by rw [flying]; exact nofun))))))
  leaveComplete s _ _ := by
    rw [leaveComplete_fst]
    exact clearSession_quietOffline _
  leaving s _ _ := quietOffline_of_online nofun
  headerEvent s r r' rx receiving _ quiet := quietOffline_of_online (by
    rw [headerEvent_session]
    exact online_of_onLine quiet (.inl (by rw [receiving]; exact nofun)))
  startClaiming s _ _ := quietOffline_of_online nofun
  presenceExpiry s running quiet := by
    unfold presenceExpiry
    dsimp only
    split <;> exact quietOffline_of_same (s := s) rfl rfl rfl quiet
  silentPeer s x _ quiet := quiet
  goStale s k reason _ quiet := quiet
  setLimit s k limit quiet := quiet
  readSlot s k quiet := quiet
  requestRecall s topic o quiet := by
    rw [requestRecall_eq]
    exact quietOffline_of_same (s := s) rfl rfl rfl quiet
  recallExpiry s p _ quiet := by
    rw [recallExpiry_eq]
    exact quietOffline_of_same (s := s) rfl rfl rfl quiet
  recallOrigin s p _ quiet := quiet
  makeRecall s p topic o _ _ quiet := quietOffline_of_same rfl rfl rfl quiet
  periodicExpiry s i quiet := by
    rw [periodicExpiry_eq]
    exact quietOffline_of_same (s := s) rfl rfl rfl quiet
  holdOff s i quiet := quiet
  configure s args r offline _ quiet := quietOffline_of_same (s := s) rfl rfl rfl quiet
  join s r _ _ _ := quietOffline_of_online nofun
  sub s i f quiet := quiet
  takeRecords s q n _ quiet := quiet
  clearOverflow s q quiet := quiet
  declare s i topic c m period value _ _ quiet := by
    rw [declareAt_eq]
    exact quietOffline_of_same (s := s) rfl rfl rfl quiet
  write s i value _ quiet := by
    rw [writeEntry_eq]
    exact quietOffline_of_same (s := s) rfl rfl rfl quiet
  withdraw s i _ quiet := by
    rw [withdrawAt_eq]
    exact quietOffline_of_same (s := s) rfl rfl rfl quiet
  freeYielded s i _ quiet := quiet
  requestEpoch s _ quiet := quietOffline_of_same rfl rfl rfl quiet
  openBank s b _ _ quiet := quiet
  releaseBank s b _ quiet := quiet

/-! ## The state of the station at a frame end -/

/-- The station is not in OFFLINE. -/
def online (s : State) : Prop := s.session.state ≠ .offline

theorem refuse_online (reason : RefusalReason) (s : State) : online (refuse reason s).1 := by
  unfold online
  rw [refuse_session]
  exact nofun

theorem online_of_same {s t : State} (session : t.session = s.session) (h : online s) : online t := by
  unfold online
  rw [session]
  exact h

theorem cleanEnd_session (s : State) : (cleanEnd s).session = s.session := by
  cases flying : s.access.inFlight with
  | none => rw [cleanEnd_of_none flying]
  | some f =>
    rw [cleanEnd_of_flight flying, ownerClean_eq]
    rfl

theorem accessAtFrame_session (own : Bool) (f : Frame) (s : State) : (accessAtFrame own f s).1.session = s.session := by
  unfold accessAtFrame
  dsimp only
  split
  · exact cleanEnd_session _
  · split <;> rfl

theorem sessionAtFrame_online (own : Bool) (f : Frame) {s : State} (h : online s) : online (sessionAtFrame own f s).1 := by
  have defended : online (defend s) := by
    rw [defend_eq]
    exact h
  unfold sessionAtFrame
  split
  · unfold ownCleanEnd
    split
    · unfold enterMember
      dsimp only
      unfold online
      rw [announce_eq, setPubs_session]
      exact nofun
    · exact h
    · exact h
  · split
    · unfold foreignOwnNumber
      split
      · exact refuse_online _ s
      · exact refuse_online _ s
      · unfold answerDuplicate
        split
        · exact defended
        · dsimp only
          split
          · exact refuse_online _ s
          · split <;> exact defended
        all_goals exact defended
      all_goals exact h
    · exact h

theorem online_keptByBlocks : KeptByBlocks online where
  free s n h := h
  post s n h := online_of_same (post_session s n) h
  resetBases s h := h
  rescore s n _ h := h
  releaseFrame s h := online_of_same (releaseFrame_session s) h
  accessAtFrame own f s h := online_of_same (accessAtFrame_session own f s) h
  sessionAtFrame own f s h := sessionAtFrame_online own f h
  rosterAtFrame own f s h := online_of_same (rosterAtFrame_session own f s) h
  acceptanceAtFrame own headerSeen f s h := online_of_same (acceptanceAtFrame_changed own headerSeen f s).session h
  publicationAtFrame own f s h := by
    rw [publicationAtFrame_eq]
    exact h
  continuityAtFrame own f s h := by
    rw [continuityAtFrame_eq]
    exact h
  epochAtFrame own f s h := by
    rw [epochAtFrame_eq]
    exact h

end Sys2Proof.Machine
end

section
/-! The reservation list and the pool at a frame end and after every step (R70, R72, R82, R86, R87). -/

namespace Sys2Proof.Machine

/-! ## The clauses -/

/-- The reservation list fits the queues and the pool, and is empty unless a header is complete. -/
def listFits (s : State) : Prop := reservesFit s ∧ (s.accept.plan ≠ Plan.empty → headerSeen s)

theorem listFits_iff (s : State) : listFits s ↔ planFits s ∧ poolFits s :=
  ⟨fun ⟨⟨⟨distinct, holds⟩, pool⟩, seen⟩ => ⟨⟨distinct, holds, seen⟩, pool⟩,
    fun ⟨⟨distinct, holds, seen⟩, pool⟩ => ⟨⟨⟨distinct, holds⟩, pool⟩, seen⟩⟩

theorem listFits_of_same {s t : State} (queues : t.store.queues = s.store.queues) (free : t.store.free = s.store.free)
    (plan : t.accept.plan = s.accept.plan) (record : t.session.record = s.session.record)
    (receive : t.line.receive = s.line.receive) (h : listFits s) : listFits t := by
  refine ⟨⟨?_, poolFits_of_same queues free record h.1.2⟩, ?_⟩
  · rw [plan]
    exact h.1.1.of_same queues
  · unfold headerSeen
    rw [plan, receive]
    exact h.2

theorem listFits_of_changed {s t : State} (changed : OwnersChanged s t) (record : t.session.record = s.session.record)
    (receive : t.line.receive = s.line.receive) (h : listFits s) : listFits t :=
  listFits_of_same (by rw [changed.store]) (by rw [changed.store]) (by rw [changed.accept]) record receive h

theorem listFits_of_closed {s t : State} (closed : Closed s t) (pool : poolFits t) : listFits t := by
  obtain ⟨plan, held, -⟩ := closed
  refine ⟨⟨?_, pool⟩, fun listed => absurd plan listed⟩
  rw [plan]
  exact held

/-- With nothing reserved and every cell free. -/
theorem listFits_of_empty {t : State} (plan : t.accept.plan = Plan.empty)
    (queues : t.store.queues = Vector.replicate 8 ReceiveQueue.initial) (free : t.store.free = 128) : listFits t := by
  have queue : ∀ q : QueueNo, t.store.queues[q] = ReceiveQueue.initial := fun q => by
    rw [queues]
    simp
  have cells : ∀ q : QueueNo, (t.store.queues[q]).cells = 0 := fun q => by
    rw [queue q]
    rfl
  refine ⟨⟨?_, ?_, fun q => by rw [cells q]; exact Nat.zero_le _⟩, fun listed => absurd plan listed⟩
  · rw [plan]
    exact holdsFor_nil fun q => by rw [queue q]; rfl
  · rw [free, MessageStore.cellsUsed_eq_sum, Finset.sum_eq_zero fun q _ => cells q]
    rfl

/-- The list is empty where no header is complete. -/
theorem listFits.empty {s : State} (h : listFits s) (unseen : ¬ headerSeen s) : s.accept.plan = Plan.empty := by
  by_contra listed
  exact unseen (h.2 listed)

theorem listFits.holdsNone {s : State} (h : listFits s) (unseen : ¬ headerSeen s) : HoldsFor [] s := by
  have held := h.1.1
  rw [h.empty unseen] at held
  exact held

theorem not_headerSeen_of_offline {s : State} (quiet : quietOffline s) (offline : s.session.state = .offline) :
    ¬ headerSeen s := by
  rintro ⟨r, receiving, -⟩
  rw [(quiet offline).1] at receiving
  cases receiving

theorem clearSession_accept (s : State) : (clearSession s).accept = (releaseFrame s).accept := by
  unfold clearSession slotsLeft pubsLeft stopSending
  simp
theorem clearSession_queues (s : State) : (clearSession s).store.queues = (releaseFrame s).store.queues := by
  unfold clearSession slotsLeft pubsLeft stopSending
  simp
theorem clearSession_free (s : State) : (clearSession s).store.free = (releaseFrame s).store.free := by
  unfold clearSession slotsLeft pubsLeft stopSending
  simp

theorem leaveComplete_listFits {s : State} (h : reservesFit s) : listFits (leaveComplete s).1 := by
  rw [leaveComplete_fst]
  generalize hu : (epochLeft (cancelRecalls s).1).1 = u
  have same : u.accept = s.accept ∧ u.store = s.store ∧ u.session = s.session := by
    rw [← hu]
    exact ⟨rfl, rfl, rfl⟩
  obtain ⟨accept, store, session⟩ := same
  have held : HoldsFor u.accept.plan.targets u := by
    rw [accept]
    exact h.1.of_same (by rw [store])
  have closed := releaseFrame_closed held
  have pool := closed.2.2.poolFits (by rw [releaseFrame_session])
    (poolFits_of_same (by rw [store]) (by rw [store]) (by rw [session]) h.2)
  refine listFits_of_closed (s := u) ⟨?_, closed.2.1.of_same (clearSession_queues u), ?_⟩ ?_
  · rw [clearSession_accept]
    exact closed.1
  · exact closed.2.2.trans (.of_same (clearSession_queues u) (clearSession_free u))
  · refine poolFits_of_same (clearSession_queues u) (clearSession_free u) ?_ pool
    rw [clearSession_session, releaseFrame_session]

theorem refuse_record (reason : RefusalReason) (s : State) : (refuse reason s).1.session.record = s.session.record := by
  rw [refuse_session]
theorem refuse_line (reason : RefusalReason) (s : State) : (refuse reason s).1.line = s.line := rfl

theorem jamOutcome_leaves (f : Flight) (s : State) :
    OwnersChanged s (jamOutcome f s).1 ∧ (jamOutcome f s).1.session.record = s.session.record ∧
      (jamOutcome f s).1.line.receive = s.line.receive := by
  have landed : OwnersChanged s ((s.setLine s.line.afterJam).setAccess { s.access with inFlight := none }) := {}
  unfold jamOutcome
  dsimp only
  generalize hu : (s.setLine s.line.afterJam).setAccess { s.access with inFlight := none } = u at landed
  have session : u.session = s.session := hu ▸ rfl
  have receive : u.line.receive = s.line.receive := hu ▸ rfl
  split
  · unfold abandon
    rw [andThen_fst]
    dsimp only
    have removed : OwnersChanged s (removeItem u f.kind) := landed.trans {}
    unfold ownerAbandoned
    split
    · split
      · exact ⟨removed.trans (refuse_changed _ _), by rw [refuse_record]; exact congrArg _ session, by
          rw [refuse_line]; exact receive⟩
      · exact ⟨removed, congrArg _ session, receive⟩
    · exact ⟨removed, congrArg _ session, receive⟩
    · exact ⟨removed.trans {}, congrArg _ session, receive⟩
    · rename_i topic _
      refine ⟨removed.trans (.of_cont (recallAbandoned_eq _ _)), ?_⟩
      rw [recallAbandoned_eq]
      exact ⟨congrArg _ session, receive⟩
    · exact ⟨removed.trans {}, congrArg _ session, receive⟩
  · refine ⟨landed.trans (.of_epochPubs (ownerCollided_eq _ _)), ?_⟩
    rw [ownerCollided_eq]
    exact ⟨congrArg _ session, receive⟩

theorem startAttempt_leaves (s : State) (it : Item) :
    OwnersChanged s (startAttempt s it) ∧ (startAttempt s it).session = s.session ∧
      (startAttempt s it).line.receive = s.line.receive := by
  unfold startAttempt noteLatch
  cases it.kind <;> exact ⟨{}, rfl, rfl⟩

theorem headerEvent_listFits {s : State} {r r' : Reception} (rx : Receiver) (receiving : s.line.receive = .inFrame r)
    (unseen : r.headerSeen = false) (h : listFits s) : listFits (headerEvent s r' rx) := by
  have not_seen : ¬ headerSeen s := by
    rintro ⟨x, receiving', seen⟩
    rw [receiving] at receiving'
    cases receiving'
    rw [unseen] at seen
    cases seen
  have start : reservesFit (setPlan (s.setLine { s.line with receive := .inFrame { r' with headerSeen := true, rx := rx } })
      Plan.empty) := ⟨(h.holdsNone not_seen).of_same rfl, poolFits_of_same rfl rfl rfl h.1.2⟩
  refine ⟨walk_reservesFit _ _ start, fun _ => ⟨{ r' with headerSeen := true, rx := rx }, ?_, rfl⟩⟩
  unfold headerEvent matchingWalk
  rw [walk_eq]
  rfl

theorem takeRecords_listFits {s : State} {q : QueueNo} {n : Nat} (enough : n ≤ (s.store.queues[q]).records.length)
    (h : listFits s) : listFits (takeRecords s q n) := by
  have cells : ({ (s.store.queues[q]) with records := (s.store.queues[q]).records.drop n } : ReceiveQueue).cells + n =
      (s.store.queues[q]).cells := by
    show (List.drop n _).length + (s.store.queues[q]).reserved.toNat + n =
      (s.store.queues[q]).records.length + (s.store.queues[q]).reserved.toNat
    rw [List.length_drop]
    omega
  have within := Nat.le.intro cells
  have pool : PoolKept s (takeRecords s q n) :=
    .of_upd (q := q) (f := fun x => { x with records := x.records.drop n }) rfl
      ((Nat.add_assoc ..).trans (congrArg _ ((Nat.add_comm ..).trans cells))) within
  refine ⟨⟨⟨h.1.1.1, fun p => ?_⟩, pool.poolFits rfl h.1.2⟩, h.2⟩
  refine Iff.trans (Eq.to_iff (congrArg (· = true) ?_)) (h.1.1.2 p)
  unfold takeRecords
  dsimp only
  rw [setStore_store, updQueue_store]
  dsimp only
  rw [upd_getElem]
  split
  · rename_i same
    subst same
    rfl
  · rfl

theorem clearOverflow_listFits {s : State} (q : QueueNo) (h : listFits s) :
    listFits (s.updQueue q fun x => { x with overflow := false, dropped := 0 }) := by
  have pool : PoolKept s (s.updQueue q fun x => { x with overflow := false, dropped := 0 }) :=
    .of_upd (q := q) (f := fun x => { x with overflow := false, dropped := 0 }) rfl rfl le_rfl
  refine ⟨⟨⟨h.1.1.1, fun p => ?_⟩, pool.poolFits rfl h.1.2⟩, h.2⟩
  refine Iff.trans (Eq.to_iff (congrArg (· = true) ?_)) (h.1.1.2 p)
  rw [updQueue_store]
  dsimp only
  rw [upd_getElem]
  split
  · rename_i same
    subst same
    rfl
  · rfl

/-- The line inactive in OFFLINE, and the reservation list and the pool. -/
def storeFits (s : State) : Prop := quietOffline s ∧ listFits s

theorem storeFits_kept : Kept storeFits where
  hardReset s h fits := ⟨quietOffline_kept.hardReset s h fits.1, listFits_of_empty rfl rfl rfl⟩
  hold s h fits := fits
  softReset s fits := ⟨quietOffline_kept.softReset s fits.1, listFits_of_empty rfl rfl rfl⟩
  tick s fits := ⟨quietOffline_kept.tick s fits.1, listFits_of_same (tick_queues s) (tick_cellsFree s)
    (by rw [tick_accept]) (by rw [tick_session]) (by rw [tick_line]; rfl) fits.2⟩
  port s p _ _ fits := fits
  post s n fits := ⟨quietOffline_kept.post s n fits.1, listFits_of_same (by rw [post_store]) (by rw [post_store])
    (by rw [post_accept]) (by rw [post_session]) (by rw [post_line]) fits.2⟩
  readNotice s n rest _ fits := fits
  line s x used receive fits := by
    refine ⟨quietOffline_kept.line s x used receive fits.1, ⟨fits.2.1.1.of_same rfl, poolFits_of_same rfl rfl rfl fits.2.1.2⟩,
      fun listed => ?_⟩
    obtain ⟨r, receiving, seen⟩ := fits.2.2 listed
    refine ⟨r, ?_, seen⟩
    rcases receive with same | awaits
    · exact same.trans receiving
    · rw [receiving] at awaits
      cases awaits
  access s a score standing flight fits :=
    ⟨quietOffline_kept.access s a score standing flight fits.1, listFits_of_same (s := s) rfl rfl rfl rfl rfl fits.2⟩
  rescore s n bound fits := ⟨quietOffline_kept.rescore s n bound fits.1, listFits_of_same rfl rfl rfl rfl rfl fits.2⟩
  countAttempt s k fits := ⟨quietOffline_kept.countAttempt s k fits.1, listFits_of_same rfl rfl rfl rfl rfl fits.2⟩
  startAttempt s it between free permitted head fits := by
    obtain ⟨changed, session, receive⟩ := startAttempt_leaves s it
    exact ⟨quietOffline_kept.startAttempt s it between free permitted head fits.1,
      listFits_of_changed changed (by rw [session]) receive fits.2⟩
  jamOutcome s f flying jamming fits := by
    obtain ⟨changed, record, receive⟩ := jamOutcome_leaves f s
    exact ⟨quietOffline_kept.jamOutcome s f flying jamming fits.1, listFits_of_changed changed record receive fits.2⟩
  leaveComplete s inUse fits := ⟨quietOffline_kept.leaveComplete s inUse fits.1, leaveComplete_listFits fits.2.1⟩
  leaving s inUse fits := ⟨quietOffline_kept.leaving s inUse fits.1, listFits_of_same (s := s) rfl rfl rfl rfl rfl fits.2⟩
  headerEvent s r r' rx receiving unseen fits :=
    ⟨quietOffline_kept.headerEvent s r r' rx receiving unseen fits.1, headerEvent_listFits rx receiving unseen fits.2⟩
  startClaiming s listening fits :=
    ⟨quietOffline_kept.startClaiming s listening fits.1, listFits_of_same rfl rfl rfl rfl rfl fits.2⟩
  presenceExpiry s running fits := by
    refine ⟨quietOffline_kept.presenceExpiry s running fits.1, ?_⟩
    unfold presenceExpiry
    dsimp only
    split <;> exact listFits_of_same (s := s) rfl rfl rfl rfl rfl fits.2
  silentPeer s x _ fits := fits
  goStale s k reason _ fits := ⟨fits.1, listFits_of_same (s := s) rfl rfl rfl rfl rfl fits.2⟩
  setLimit s k limit fits := ⟨fits.1, listFits_of_same (s := s) rfl rfl rfl rfl rfl fits.2⟩
  readSlot s k fits := ⟨fits.1, listFits_of_same (s := s) rfl rfl rfl rfl rfl fits.2⟩
  requestRecall s topic o fits := by
    refine ⟨quietOffline_kept.requestRecall s topic o fits.1, ?_⟩
    rw [requestRecall_eq]
    exact listFits_of_same (s := s) rfl rfl rfl rfl rfl fits.2
  recallExpiry s p waits fits := by
    refine ⟨quietOffline_kept.recallExpiry s p waits fits.1, ?_⟩
    rw [recallExpiry_eq]
    exact listFits_of_same (s := s) rfl rfl rfl rfl rfl fits.2
  recallOrigin s p _ fits := fits
  makeRecall s p topic o unlisted free fits :=
    ⟨quietOffline_kept.makeRecall s p topic o unlisted free fits.1, listFits_of_same rfl rfl rfl rfl rfl fits.2⟩
  periodicExpiry s i fits := by
    refine ⟨quietOffline_kept.periodicExpiry s i fits.1, ?_⟩
    rw [periodicExpiry_eq]
    exact listFits_of_same (s := s) rfl rfl rfl rfl rfl fits.2
  holdOff s i fits := fits
  configure s args r offline inRange fits := ⟨quietOffline_kept.configure s args r offline inRange fits.1,
    listFits_of_empty (fits.2.empty (not_headerSeen_of_offline fits.1 offline)) rfl rfl⟩
  join s r offline recorded fits := by
    have unseen := not_headerSeen_of_offline fits.1 offline
    refine ⟨quietOffline_kept.join s r offline recorded fits.1, listFits_of_closed (s := s)
      ⟨fits.2.empty unseen, (fits.2.holdsNone unseen).of_same rfl, .of_same rfl rfl⟩ (poolFits_of_same rfl rfl rfl fits.2.1.2)⟩
  sub s i f fits := ⟨fits.1, listFits_of_same (s := s) rfl rfl rfl rfl rfl fits.2⟩
  takeRecords s q n enough fits := ⟨fits.1, takeRecords_listFits enough fits.2⟩
  clearOverflow s q fits := ⟨fits.1, clearOverflow_listFits q fits.2⟩
  declare s i topic c m period value free unowned fits := by
    refine ⟨quietOffline_kept.declare s i topic c m period value free unowned fits.1, ?_⟩
    rw [declareAt_eq]
    exact listFits_of_same (s := s) rfl rfl rfl rfl rfl fits.2
  write s i value active fits := by
    refine ⟨quietOffline_kept.write s i value active fits.1, ?_⟩
    rw [writeEntry_eq]
    exact listFits_of_same (s := s) rfl rfl rfl rfl rfl fits.2
  withdraw s i active fits := by
    refine ⟨quietOffline_kept.withdraw s i active fits.1, ?_⟩
    rw [withdrawAt_eq]
    exact listFits_of_same (s := s) rfl rfl rfl rfl rfl fits.2
  freeYielded s i _ fits := fits
  requestEpoch s idle fits := ⟨quietOffline_kept.requestEpoch s idle fits.1, listFits_of_same rfl rfl rfl rfl rfl fits.2⟩
  openBank s b _ _ fits := fits
  releaseBank s b _ fits := fits

/-! ## The end of a frame -/

/-- What the blocks before the Acceptance Unit leave. -/
theorem afterRoster_accept (own : Bool) (f : Frame) (s : State) : (afterRoster own f s).accept = s.accept :=
  (rosterAtFrame_accept own f _).trans (afterSession_changed own f s).accept
theorem afterRoster_store (own : Bool) (f : Frame) (s : State) : (afterRoster own f s).store = s.store :=
  (rosterAtFrame_store own f _).trans (afterSession_changed own f s).store

theorem Closed.of_start {s u t : State} (accept : u.store = s.store) (h : Closed u t) : Closed s t :=
  ⟨h.1, h.2.1, (PoolKept.of_same (by rw [accept]) (by rw [accept])).trans h.2.2⟩

theorem Closed.of_end {s u t : State} (accept : t.accept = u.accept) (store : t.store = u.store) (h : Closed s u) :
    Closed s t :=
  ⟨accept ▸ h.1, h.2.1.of_same (by rw [store]), h.2.2.trans (.of_same (by rw [store]) (by rw [store]))⟩

/-- Whatever the outcome, the frame end leaves nothing reserved (R76 to R84). -/
theorem actOnOutcome_closed {own headerSeen : Bool} {o : FrameOutcome} {s : State} (h : HoldsFor s.accept.plan.targets s)
    (unseen : headerSeen = false → s.accept.plan = Plan.empty) : Closed s (actOnOutcome own headerSeen o s) := by
  have idle : headerSeen = false → Closed s s := fun none => ⟨unseen none, by rw [unseen none] at h; exact h, .refl s⟩
  have dropped : ∀ u : State, u.accept = s.accept → u.store = s.store → Closed s (dropFrame headerSeen u) :=
    fun u accept store => by
      unfold dropFrame
      split
      · have held : HoldsFor u.accept.plan.targets u := by
          rw [accept]
          exact h.of_same (by rw [store])
        exact (releaseFrame_closed held).of_start store
      · rename_i none
        exact (idle (by simpa using none)).of_end accept store
  have raised : Closed s (raiseScore (dropFrame headerSeen s) 1).done :=
    Closed.of_end (u := dropFrame headerSeen s) (postAll_accept ..) (postAll_store ..) (dropped s rfl rfl)
  cases o with
  | broken => exact dropped _ rfl rfl
  | malformed => exact raised
  | checkFailed => exact raised
  | clean f =>
    obtain ⟨ns, n, acted⟩ := cleanFrame_eq own headerSeen f s
    have changed := afterBlocks_changed own headerSeen f s
    show Closed s (cleanFrame own headerSeen f s)
    rw [acted]
    refine Closed.of_end (u := afterAcceptance own headerSeen f s) ?_ ?_ ?_
    · rw [postAll_accept]
      exact changed.accept
    · rw [postAll_store]
      exact changed.store
    · have accept := afterRoster_accept own f s
      have store := afterRoster_store own f s
      unfold afterAcceptance
      generalize afterRoster own f s = u at accept store
      cases headerSeen with
      | true =>
        refine (acceptanceAtFrame_closed ?_).of_start store
        rw [accept]
        exact h.of_same (by rw [store])
      | false => exact (idle rfl).of_end accept store

theorem refuse_record_keptByBlocks (r : Option Record) : KeptByBlocks fun t => t.session.record = r where
  free s n h := h
  post s n h := by rw [post_session]; exact h
  resetBases s h := h
  rescore s n _ h := h
  releaseFrame s h := by rw [releaseFrame_session]; exact h
  accessAtFrame own f s h := by rw [accessAtFrame_session]; exact h
  sessionAtFrame own f s h := by
    have defended : (defend s).session.record = r := by
      rw [defend_eq]
      exact h
    unfold sessionAtFrame
    split
    · unfold ownCleanEnd
      split
      · unfold enterMember
        dsimp only
        rw [announce_eq]
        exact h
      · exact h
      · exact h
    · split
      · unfold foreignOwnNumber
        split
        · exact h
        · exact h
        · unfold answerDuplicate
          split
          · exact defended
          · dsimp only
            split
            · exact h
            · split <;> exact defended
          all_goals exact defended
        all_goals exact h
      · exact h
  rosterAtFrame own f s h := by rw [rosterAtFrame_session]; exact h
  acceptanceAtFrame own headerSeen f s h := by rw [(acceptanceAtFrame_changed own headerSeen f s).session]; exact h
  publicationAtFrame own f s h := by
    rw [publicationAtFrame_eq]
    exact h
  continuityAtFrame own f s h := by
    rw [continuityAtFrame_eq]
    exact h
  epochAtFrame own f s h := by
    rw [epochAtFrame_eq]
    exact h

/-- Without a header-complete event, noted or implied, the reservation list is empty. -/
theorem impliedHeader_unseen {s : State} {r : Reception} {levels : List LineLevel} (receiving : s.line.receive = .inFrame r)
    (h : listFits s) (unseen : (impliedHeader levels s r).2 = false) :
    (impliedHeader levels s r).1.accept.plan = Plan.empty := by
  unfold impliedHeader at unseen ⊢
  split at unseen
  · cases unseen
  · rename_i none
    split at unseen
    · cases unseen
    · rename_i no_header
      rw [if_neg none]
      refine h.empty ?_
      rintro ⟨x, receiving', seen⟩
      rw [receiving] at receiving'
      cases receiving'
      exact none seen

theorem storeFits_keptAtEnd : KeptAtEnd storeFits := by
  intro levels r rx s receiving _ h
  obtain ⟨r', receiving'⟩ := impliedHeader_receive levels receiving
  have implied := storeFits_kept.impliedHeader levels receiving h
  have unseen := impliedHeader_unseen (levels := levels) receiving h.2
  unfold endFrame
  dsimp only
  generalize outcomeOf s r rx = o
  generalize impliedHeader levels s r = p at receiving' implied unseen ⊢
  have inUse : online (closeReception p.1 rx) :=
    online_of_onLine (s := p.1) implied.1 (.inl (by rw [receiving']; exact nofun))
  have held : HoldsFor (closeReception p.1 rx).accept.plan.targets (closeReception p.1 rx) := implied.2.1.1.of_same rfl
  have closed := actOnOutcome_closed (own := r.own) (o := o) held unseen
  have record := (refuse_record_keptByBlocks p.1.session.record).actOnOutcome (s := closeReception p.1 rx) r.own p.2 o rfl
  exact storeFits_kept.settleBooking (storeFits_kept.leaveAfterFrame _ _
    ⟨quietOffline_of_online (online_keptByBlocks.actOnOutcome _ _ _ inUse),
      listFits_of_closed closed (closed.2.2.poolFits record (poolFits_of_same (s := p.1) rfl rfl rfl implied.2.1.2))⟩)

/-- Settles O59: the reservation list is walked up from nothing where a header completes, given back or settled where the
frame ends, and no other step touches it, the reservations or the free cells but for the records that the host takes. -/
theorem poolCellsStayAccountedFor : Obligations.PoolCellsStayAccountedFor := fun _ _ quiet plan pool next =>
  (listFits_iff _).mp (storeFits_kept.step storeFits_keptAtEnd (fun _ _ _ fits => fits) next
    ⟨quiet, (listFits_iff _).mpr ⟨plan, pool⟩⟩).2

end Sys2Proof.Machine
end

section
/-! What the transmit list names stands as it says (R134): the invariant with the item in flight apart, and what each change
of the list, the publications and the recalls leaves of it. -/

namespace Sys2Proof.Machine

/-- The kinds of the items in the transmit list. -/
def listed (s : State) : List ItemKind := s.pubs.items.map Item.kind

theorem mem_listed {s : State} {k : ItemKind} : k ∈ listed s ↔ ∃ it ∈ s.pubs.items, it.kind = k := List.mem_map

/-- The UPDATE of publication `i` is the flight. -/
def FliesAs (flight : Option Flight) (i : PubIndex) : Prop := ∃ f, flight = some f ∧ f.kind = .update i

/-- What `itemsFit` says of the list, the publications, the recalls, the request and the station state, of a flight that is
named apart: while an attempt ends, the list is put in order before the flight is over. -/
structure TransmitFits (flight : Option Flight) (s : State) : Prop where
  distinct : (listed s).Pairwise fun a b => a.place ≠ b.place
  updates : ∀ i : PubIndex, .update i ∈ listed s → (s.pubs.table[i]).item ≠ none ∧
    ((s.pubs.table[i]).state = .active ∨ ((s.pubs.table[i]).state = .withdrawing ∧ FliesAs flight i))
  recalls : ∀ topic, .recallItem topic ∈ listed s →
    ∃ p : RecallPos, (s.cont.recalls[p]).state = .waiting ∧ (s.cont.recalls[p]).topic = topic
  epoch : .epoch ∈ listed s → s.epoch.request ≠ .none
  claim : .claim ∈ listed s → s.session.state = .claiming ∨ s.session.state = .leaving
  flags : ∀ i : PubIndex, (s.pubs.table[i]).inFlight = true → FliesAs flight i
  covered : ∀ f, flight = some f → ∃ fr, f.covered = encodeFrame fr ∧ fr.body.kind = f.kind.frameKind
  offline : s.session.state = .offline → flight = none

theorem itemsFit_iff (s : State) : itemsFit s ↔ TransmitFits s.access.inFlight s := by
  constructor
  · rintro ⟨distinct, updates, recalls, epoch, claim, flags, covered, offline⟩
    refine ⟨List.pairwise_map.mpr distinct, fun i hi => ?_, fun topic ht => ?_, fun he => ?_, fun hc => ?_, flags, covered,
      offline⟩
    · obtain ⟨it, mem, kind⟩ := mem_listed.mp hi
      exact updates it mem i kind
    · obtain ⟨it, mem, kind⟩ := mem_listed.mp ht
      exact recalls it mem topic kind
    · obtain ⟨it, mem, kind⟩ := mem_listed.mp he
      exact epoch it mem kind
    · obtain ⟨it, mem, kind⟩ := mem_listed.mp hc
      exact claim it mem kind
  · rintro ⟨distinct, updates, recalls, epoch, claim, flags, covered, offline⟩
    exact ⟨(List.pairwise_map (f := Item.kind)).mp distinct, fun it mem i kind => updates i (mem_listed.mpr ⟨it, mem, kind⟩),
      fun it mem topic kind => recalls topic (mem_listed.mpr ⟨it, mem, kind⟩),
      fun it mem kind => epoch (mem_listed.mpr ⟨it, mem, kind⟩), fun it mem kind => claim (mem_listed.mpr ⟨it, mem, kind⟩),
      flags, covered, offline⟩

theorem listed_removeItem (s : State) (k : ItemKind) : listed (removeItem s k) = (listed s).filter (· != k) := by
  unfold listed removeItem
  rw [setPubs_pubs, List.filter_map]
  rfl

theorem not_mem_listed_removeItem (s : State) (k : ItemKind) : k ∉ listed (removeItem s k) := by
  rw [listed_removeItem]
  simp

theorem listed_removeItem_subset {s : State} {k x : ItemKind} (h : x ∈ listed (removeItem s k)) : x ∈ listed s := by
  rw [listed_removeItem] at h
  exact List.mem_of_mem_filter h

theorem listed_placeWith (s : State) (k : ItemKind) (c : FrameClass) (n : Nat) :
    (listed (placeWith s k c n)).Perm (k :: listed s) := by
  unfold listed
  rw [placeWith_items]
  exact (insertItem_perm _ _).map _

theorem mem_listed_placeWith {s : State} {k x : ItemKind} {c : FrameClass} {n : Nat} :
    x ∈ listed (placeWith s k c n) ↔ x = k ∨ x ∈ listed s := by
  rw [(listed_placeWith s k c n).mem_iff, List.mem_cons]

theorem mem_listed_placeItem {s : State} {k x : ItemKind} {c : FrameClass} :
    x ∈ listed (placeItem s k c) ↔ x = k ∨ x ∈ listed s := mem_listed_placeWith

theorem updPub_entry (s : State) (i j : PubIndex) (g : PubEntry → PubEntry) :
    (s.updPub i g).pubs.table[j] = if i = j then g s.pubs.table[i] else s.pubs.table[j] := by
  refine (upd_getElem s.pubs.table i j g).trans ?_
  split
  · rename_i same
    rw [same]
  · rfl

theorem updRecall_entry (s : State) (p q : RecallPos) (g : RecallEntry → RecallEntry) :
    (s.updRecall p g).cont.recalls[q] = if p = q then g s.cont.recalls[p] else s.cont.recalls[q] := by
  refine (upd_getElem s.cont.recalls p q g).trans ?_
  split
  · rename_i same
    rw [same]
  · rfl

namespace TransmitFits
variable {flight : Option Flight} {s t : State}

/-- What leaves publications, list, recalls, request and station state. -/
theorem of_same (h : TransmitFits flight s) (pubs : t.pubs = s.pubs) (recalls : t.cont.recalls = s.cont.recalls)
    (request : t.epoch.request = s.epoch.request) (state : t.session.state = s.session.state) : TransmitFits flight t := by
  obtain ⟨distinct, updates, waiting, epoch, claim, flags, covered, offline⟩ := h
  have list : listed t = listed s := by
    unfold listed
    rw [pubs]
  refine ⟨?_, ?_, ?_, ?_, ?_, ?_, covered, ?_⟩
  · rw [list]
    exact distinct
  · rw [list, pubs]
    exact updates
  · rw [list, recalls]
    exact waiting
  · rw [list, request]
    exact epoch
  · rw [list, state]
    exact claim
  · rw [pubs]
    exact flags
  · rw [state]
    exact offline

/-- Items leave the list. -/
theorem of_sublist (h : TransmitFits flight s) (sub : (listed t).Sublist (listed s)) (table : t.pubs.table = s.pubs.table)
    (cont : t.cont = s.cont) (epoch : t.epoch = s.epoch) (session : t.session = s.session) : TransmitFits flight t := by
  refine ⟨h.distinct.sublist sub, ?_, ?_, ?_, ?_, ?_, h.covered, ?_⟩
  · rw [table]
    exact fun i hi => h.updates i (sub.subset hi)
  · rw [cont]
    exact fun topic ht => h.recalls topic (sub.subset ht)
  · rw [epoch]
    exact fun he => h.epoch (sub.subset he)
  · rw [session]
    exact fun hc => h.claim (sub.subset hc)
  · rw [table]
    exact h.flags
  · rw [session]
    exact h.offline

theorem removeItem (h : TransmitFits flight s) (k : ItemKind) : TransmitFits flight (removeItem s k) := by
  refine h.of_sublist ?_ rfl rfl rfl rfl
  rw [listed_removeItem]
  exact List.filter_sublist

/-- With nothing listed. -/
theorem of_empty (empty : t.pubs.items = [])
    (flags : ∀ i : PubIndex, (t.pubs.table[i]).inFlight = true → FliesAs flight i)
    (covered : ∀ f, flight = some f → ∃ fr, f.covered = encodeFrame fr ∧ fr.body.kind = f.kind.frameKind)
    (offline : t.session.state = .offline → flight = none) : TransmitFits flight t := by
  have none : listed t = [] := by
    unfold listed
    rw [empty]
    rfl
  have never : ∀ {k p}, k ∈ listed t → p := fun hk => by
    rw [none] at hk
    cases hk
  exact ⟨none ▸ List.Pairwise.nil, fun _ => never, fun _ => never, never, never, flags, covered, offline⟩

/-- A publication entry changes: a listed one keeps its item and stays ACTIVE or WITHDRAWING in its flight, and none is marked
in flight anew. -/
theorem updPub (h : TransmitFits flight s) (i : PubIndex) {g : PubEntry → PubEntry}
    (kept : .update i ∈ listed s → (g s.pubs.table[i]).item ≠ none ∧
      ((g s.pubs.table[i]).state = .active ∨ ((g s.pubs.table[i]).state = .withdrawing ∧ FliesAs flight i)))
    (flag : (g s.pubs.table[i]).inFlight = true → FliesAs flight i) : TransmitFits flight (s.updPub i g) := by
  refine ⟨h.distinct, fun j hj => ?_, h.recalls, h.epoch, h.claim, fun j => ?_, h.covered, h.offline⟩
  · rw [updPub_entry]
    split
    · rename_i same
      subst same
      exact kept hj
    · exact h.updates j hj
  · rw [updPub_entry]
    split
    · rename_i same
      subst same
      exact flag
    · exact h.flags j

/-- A change of an entry's other parts. -/
theorem updPub_of_same (h : TransmitFits flight s) (i : PubIndex) {g : PubEntry → PubEntry}
    (item : (g s.pubs.table[i]).item = (s.pubs.table[i]).item) (state : (g s.pubs.table[i]).state = (s.pubs.table[i]).state)
    (flag : (g s.pubs.table[i]).inFlight = true → (s.pubs.table[i]).inFlight = true) :
    TransmitFits flight (s.updPub i g) := by
  refine h.updPub i (fun hi => ?_) fun set => h.flags i (flag set)
  rw [item, state]
  exact h.updates i hi

theorem not_listed_of_item_none (h : TransmitFits flight s) {i : PubIndex} (none : (s.pubs.table[i]).item = none) :
    .update i ∉ listed s := fun hi => (h.updates i hi).1 none

theorem not_listed_of_state (h : TransmitFits flight s) {i : PubIndex} (active : (s.pubs.table[i]).state ≠ .active)
    (withdrawing : (s.pubs.table[i]).state = .withdrawing → ¬ FliesAs flight i) : .update i ∉ listed s := fun hi => by
  obtain ⟨-, act | ⟨wd, flies⟩⟩ := h.updates i hi
  · exact active act
  · exact withdrawing wd flies

/-- An item is placed that is not listed yet. -/
theorem placeWith (h : TransmitFits flight s) {k : ItemKind} (c : FrameClass) (n : Nat)
    (new : ∀ x ∈ listed s, x.place ≠ k.place)
    (update : ∀ i : PubIndex, k = .update i → (s.pubs.table[i]).item ≠ none ∧ (s.pubs.table[i]).state = .active)
    (waits : ∀ topic, k = .recallItem topic →
      ∃ p : RecallPos, (s.cont.recalls[p]).state = .waiting ∧ (s.cont.recalls[p]).topic = topic)
    (request : k = .epoch → s.epoch.request ≠ .none)
    (claiming : k = .claim → s.session.state = .claiming) : TransmitFits flight (placeWith s k c n) := by
  refine ⟨?_, fun i hi => ?_, fun topic ht => ?_, fun he => ?_, fun hc => ?_, h.flags, h.covered, h.offline⟩
  · refine ((listed_placeWith s k c n).pairwise_iff fun apart => apart.symm).mpr ?_
    exact List.pairwise_cons.mpr ⟨fun x hx => (new x hx).symm, h.distinct⟩
  · obtain same | hi := mem_listed_placeWith.mp hi
    · obtain ⟨item, active⟩ := update i same.symm
      exact ⟨item, .inl active⟩
    · exact h.updates i hi
  · obtain same | ht := mem_listed_placeWith.mp ht
    · exact waits topic same.symm
    · exact h.recalls topic ht
  · obtain same | he := mem_listed_placeWith.mp he
    · exact request same.symm
    · exact h.epoch he
  · obtain same | hc := mem_listed_placeWith.mp hc
    · exact .inl (claiming same.symm)
    · exact h.claim hc

theorem placeUpdate (h : TransmitFits flight s) {i : PubIndex} (c : FrameClass) (unlisted : .update i ∉ listed s)
    (item : (s.pubs.table[i]).item ≠ none) (active : (s.pubs.table[i]).state = .active) :
    TransmitFits flight (placeItem s (.update i) c) := by
  refine h.placeWith c 0 (fun x hx same => unlisted ?_) (fun j same => ?_) nofun nofun nofun
  · cases x <;> cases same
    exact hx
  · cases same
    exact ⟨item, active⟩

theorem placePresence (h : TransmitFits flight s) (d : Bool) (c : FrameClass) (n : Nat)
    (unlisted : ∀ d, .presence d ∉ listed s) : TransmitFits flight (Machine.placeWith s (.presence d) c n) := by
  refine h.placeWith c n (fun x hx same => ?_) nofun nofun nofun nofun
  cases x <;> cases same
  exact unlisted _ hx

/-- The entry of a recall changes: a WAITING one stays so, or its topic is not listed. -/
theorem updRecall (h : TransmitFits flight s) (p : RecallPos) {g : RecallEntry → RecallEntry}
    (kept : (s.cont.recalls[p]).state = .waiting → .recallItem (s.cont.recalls[p]).topic ∈ listed s →
      (g s.cont.recalls[p]).state = .waiting ∧ (g s.cont.recalls[p]).topic = (s.cont.recalls[p]).topic) :
    TransmitFits flight (s.updRecall p g) := by
  refine ⟨h.distinct, h.updates, fun topic ht => ?_, h.epoch, h.claim, h.flags, h.covered, h.offline⟩
  obtain ⟨q, waiting, same⟩ := h.recalls topic ht
  refine ⟨q, ?_⟩
  rw [updRecall_entry]
  split
  · rename_i here
    subst here
    have still := kept waiting (same ▸ ht)
    exact ⟨still.1, still.2.trans same⟩
  · exact ⟨waiting, same⟩

/-- The request changes: it goes only when no EPOCH is listed. -/
theorem setEpoch (h : TransmitFits flight s) {u : EpochUnit}
    (kept : s.epoch.request ≠ .none → .epoch ∈ listed s → u.request ≠ .none) : TransmitFits flight (s.setEpoch u) :=
  ⟨h.distinct, h.updates, h.recalls, fun he => kept (h.epoch he) he, h.claim, h.flags, h.covered, h.offline⟩

/-- The station state changes, not to OFFLINE with an item in flight. -/
theorem setSession (h : TransmitFits flight s) {c : SessionController}
    (kept : .claim ∈ listed s → c.state = .claiming ∨ c.state = .leaving) (offline : c.state = .offline → flight = none) :
    TransmitFits flight (s.setSession c) :=
  ⟨h.distinct, h.updates, h.recalls, h.epoch, kept, h.flags, h.covered, offline⟩

/-- The flight is over: its publication is not marked and not WITHDRAWING in the list. -/
theorem land {f : Flight} (h : TransmitFits (some f) s)
    (landed : ∀ i : PubIndex, f.kind = .update i → (s.pubs.table[i]).inFlight = false ∧
      (.update i ∈ listed s → (s.pubs.table[i]).state = .active)) : TransmitFits none s := by
  refine ⟨h.distinct, fun i hi => ?_, h.recalls, h.epoch, h.claim, fun i set => ?_, nofun, fun _ => rfl⟩
  · obtain ⟨item, active | ⟨-, f', same, kind⟩⟩ := h.updates i hi
    · exact ⟨item, .inl active⟩
    · cases same
      exact ⟨item, .inl ((landed i kind).2 hi)⟩
  · obtain ⟨f', same, kind⟩ := h.flags i set
    cases same
    rw [(landed i kind).1] at set
    cases set

/-! ## Publications -/

theorem makePendingNew (h : TransmitFits flight s) (i : PubIndex) : TransmitFits flight (makePendingNew s i) := by
  unfold Machine.makePendingNew
  dsimp only
  split
  · rename_i ready
    split
    · rename_i none
      have unlisted := h.not_listed_of_item_none none
      refine placeUpdate (h.updPub i (fun hi => absurd hi unlisted) (h.flags i)) _ unlisted ?_ ?_
      · rw [updPub_entry, if_pos rfl]
        exact nofun
      · rw [updPub_entry, if_pos rfl]
        exact ready.1
    · exact h.updPub i (fun hi => ⟨nofun, .inl ready.1⟩) (h.flags i)
    · exact h
  · exact h

theorem makePendingRepeat (h : TransmitFits flight s) (i : PubIndex) (active : (s.pubs.table[i]).state = .active)
    (none : (s.pubs.table[i]).item = none) : TransmitFits flight (makePendingRepeat s i) := by
  have unlisted := h.not_listed_of_item_none none
  unfold Machine.makePendingRepeat
  refine placeUpdate (h.updPub i (fun hi => absurd hi unlisted) (h.flags i)) _ unlisted ?_ ?_
  · rw [updPub_entry, if_pos rfl]
    exact nofun
  · rw [updPub_entry, if_pos rfl]
    exact active

theorem startPeriod (h : TransmitFits flight s) (i : PubIndex) : TransmitFits flight (s.updPub i PubEntry.startPeriod) := by
  refine h.updPub_of_same i ?_ ?_ ?_
  all_goals
    unfold PubEntry.startPeriod
    split
  all_goals first | rfl | exact id

theorem announceEntry (h : TransmitFits flight s) (i : PubIndex) : TransmitFits flight (announceEntry s i) := by
  unfold Machine.announceEntry
  split
  · exact ((h.updPub_of_same i rfl rfl id).makePendingNew i).startPeriod i
  · exact h

theorem announce (h : TransmitFits flight s) : TransmitFits flight (announce s) := by
  unfold Machine.announce
  generalize List.finRange 32 = is
  induction is generalizing s with
  | nil => exact h
  | cons i is ih => exact ih (h.announceEntry i)

theorem declareAt (h : TransmitFits flight s) {i : PubIndex} (free : (s.pubs.table[i]).state = .free) {e : PubEntry}
    (idle : e.inFlight = false) : TransmitFits flight (declareAt s i e) := by
  have unlisted : .update i ∉ listed s := h.not_listed_of_state (by rw [free]; exact nofun) (by rw [free]; exact nofun)
  have declared : TransmitFits flight (s.updPub i fun _ => e) :=
    h.updPub i (fun hi => absurd hi unlisted) fun set => by rw [idle] at set; cases set
  unfold Machine.declareAt
  split
  · exact (declared.makePendingNew i).startPeriod i
  · exact declared

theorem writeEntry (h : TransmitFits flight s) {i : PubIndex} (active : (s.pubs.table[i]).state = .active)
    (value : List Byte) : TransmitFits flight (writeEntry s i value) := by
  have written : TransmitFits flight (s.updPub i fun e => e.write value) := by
    refine h.updPub i (fun hi => ⟨?_, .inl active⟩) (h.flags i)
    have item := (h.updates i hi).1
    unfold PubEntry.write
    simpa using item
  unfold Machine.writeEntry
  dsimp only
  split
  · split
    · exact written.updPub_of_same i rfl rfl id
    · exact written.makePendingNew i
  · exact written

/-- A publication leaves the list and its entry changes. -/
theorem dropUpdate (h : TransmitFits flight s) (i : PubIndex) {g : PubEntry → PubEntry}
    (flag : (g s.pubs.table[i]).inFlight = true → (s.pubs.table[i]).inFlight = true) :
    TransmitFits flight (Machine.removeItem (s.updPub i g) (.update i)) :=
  (h.removeItem (.update i)).updPub i (fun hi => absurd hi (not_mem_listed_removeItem s _)) fun set => h.flags i (flag set)

theorem withdrawAt (h : TransmitFits flight s) (i : PubIndex) : TransmitFits flight (withdrawAt s i) := by
  unfold Machine.withdrawAt
  split
  · rename_i set
    exact h.updPub i (fun hi => ⟨(h.updates i hi).1, .inr ⟨rfl, h.flags i set⟩⟩) fun _ => h.flags i set
  · exact h.dropUpdate i nofun

theorem freeYielded (h : TransmitFits flight s) {i : PubIndex} (yielded : (s.pubs.table[i]).state = .yielded) :
    TransmitFits flight (s.updPub i fun _ => PubEntry.initial) := by
  have unlisted : .update i ∉ listed s := h.not_listed_of_state (by rw [yielded]; exact nofun) (by rw [yielded]; exact nofun)
  exact h.updPub i (fun hi => absurd hi unlisted) nofun

theorem periodicExpiry (h : TransmitFits flight s) (i : PubIndex) : TransmitFits flight (periodicExpiry s i) := by
  have restarted : TransmitFits flight (s.updPub i fun e => { e with periodicTimer := millis e.period }) :=
    h.updPub_of_same i rfl rfl id
  unfold Machine.periodicExpiry
  dsimp only
  split
  · exact restarted
  · split
    · split
      · exact restarted.updPub i (fun hi => ⟨nofun, (restarted.updates i hi).2⟩) (restarted.flags i)
      · exact restarted
    · exact restarted.makePendingNew i

theorem stopSending (covered : ∀ f, flight = some f → ∃ fr, f.covered = encodeFrame fr ∧ fr.body.kind = f.kind.frameKind)
    (flags : ∀ i : PubIndex, (s.pubs.table[i]).inFlight = true → FliesAs flight i)
    (offline : s.session.state = .offline → flight = none) : TransmitFits flight (stopSending s) := by
  refine of_empty rfl (fun i set => flags i ?_) covered offline
  unfold Machine.stopSending at set
  rw [setPubs_pubs] at set
  dsimp only at set
  rw [tabMap_getElem] at set
  exact set

theorem answerPeer (h : TransmitFits flight s) (topic : Topic) : TransmitFits flight (answerPeer s topic) := by
  have held : ∀ {u : State} i, TransmitFits flight u → TransmitFits flight (startHoldOff u i) := fun i hu =>
    hu.updPub_of_same i rfl rfl id
  unfold Machine.answerPeer
  split
  · exact h
  · rename_i i found
    dsimp only
    split
    · exact h
    · split
      · exact held i h
      · rename_i none
        split
        · exact held i (h.makePendingNew i)
        · exact held i (h.makePendingRepeat i (activeEntry_some found).1 (by simpa using none))

theorem ownershipConflict (h : TransmitFits flight s) (topic : Topic) (x : Station) :
    TransmitFits flight (ownershipConflict s topic x).1 := by
  unfold Machine.ownershipConflict
  split
  · exact h
  · rename_i i _
    split
    · exact h.dropUpdate i id
    · split
      · have observed : TransmitFits flight (s.updPub i fun e => { e with conflict := some x }) :=
          h.updPub_of_same i rfl rfl id
        dsimp only
        split
        · exact observed.makePendingNew i
        · exact observed
      · exact h

theorem publicationAtFrame (h : TransmitFits flight s) (own : Bool) (f : Frame) :
    TransmitFits flight (publicationAtFrame own f s).1 := by
  unfold Machine.publicationAtFrame
  split
  · exact h
  · split
    · exact h.ownershipConflict _ _
    · exact h.answerPeer _
    all_goals exact h

/-! ## Recalls -/

/-- A recall entry that is not FREE is the only one of its topic, so that a listed RECALL of it is its own. -/
theorem waiting_of_listed (h : TransmitFits flight s) (fits : s.cont.recallsFit) {p : RecallPos}
    (busy : (s.cont.recalls[p]).state ≠ .free) (on : .recallItem (s.cont.recalls[p]).topic ∈ listed s) :
    (s.cont.recalls[p]).state = .waiting := by
  obtain ⟨q, waiting, same⟩ := h.recalls _ on
  have here := fits.1 q p (by rw [waiting]; exact nofun) busy same
  exact here ▸ waiting

theorem makeRecall (h : TransmitFits flight s) {p : RecallPos} {topic : Topic} (o : RecallOrigin)
    (absent : recallAt s topic = none) (free : freeRecall s = some p) : TransmitFits flight (makeRecall s p topic o) := by
  have isFree : (s.cont.recalls[p]).state = .free := by simpa using tabFind_some free
  have unlisted : .recallItem topic ∉ listed s := fun on => by
    obtain ⟨q, waiting, same⟩ := h.recalls topic on
    have other := tabFind_none absent q
    rw [waiting, same] at other
    simp at other
  unfold Machine.makeRecall
  refine placeWith (h.updRecall p fun waiting => ?_) _ 0 (fun x hx same => unlisted ?_) nofun (fun t kind => ⟨p, ?_⟩) nofun
    nofun
  · rw [isFree] at waiting
    cases waiting
  · cases x <;> cases same
    exact hx
  · cases kind
    rw [updRecall_entry, if_pos rfl]
    exact ⟨rfl, rfl⟩

theorem requestRecall (h : TransmitFits flight s) (topic : Topic) (o : RecallOrigin) :
    TransmitFits flight (requestRecall s topic o) := by
  unfold Machine.requestRecall
  split
  · rename_i allowed
    split
    · rename_i p free
      exact h.makeRecall o allowed.2.2.2 free
    · exact h
  · exact h

theorem recallExpiry (h : TransmitFits flight s) (fits : s.cont.recallsFit) {p : RecallPos}
    (waits : (s.cont.recalls[p]).waits = true) : TransmitFits flight (recallExpiry p s).1 := by
  have sent : (s.cont.recalls[p]).state = .sent ∨ (s.cont.recalls[p]).state = .suppressed := by
    unfold RecallEntry.waits at waits
    simp only [Bool.and_eq_true, Bool.or_eq_true, beq_iff_eq] at waits
    exact waits.1
  have busy : (s.cont.recalls[p]).state ≠ .free ∧ (s.cont.recalls[p]).state ≠ .waiting := by
    rcases sent with sent | sent <;> rw [sent] <;> exact ⟨nofun, nofun⟩
  have unlisted : .recallItem (s.cont.recalls[p]).topic ∉ listed s := fun on =>
    busy.2 (h.waiting_of_listed fits busy.1 on)
  unfold Machine.recallExpiry
  dsimp only
  split
  · refine placeWith (h.updRecall p fun waiting => absurd waiting busy.2) _ 0 (fun x hx same => unlisted ?_) nofun
      (fun t kind => ⟨p, ?_⟩) nofun nofun
    · cases x <;> cases same
      exact hx
    · cases kind
      rw [updRecall_entry, if_pos rfl]
      exact ⟨rfl, rfl⟩
  · exact h.updRecall p fun waiting => absurd waiting busy.2

theorem suppressRecall (h : TransmitFits flight s) (topic : Topic) : TransmitFits flight (suppressRecall s topic) := by
  unfold Machine.suppressRecall
  split
  · rename_i p found
    split
    · refine (h.removeItem (.recallItem topic)).updRecall p fun _ on => ?_
      have same : (s.cont.recalls[p]).topic = topic := (recallAt_some found).2
      have gone := not_mem_listed_removeItem s (.recallItem topic)
      exact absurd (same ▸ on) gone
    · exact h
  · exact h

theorem answerRecall (h : TransmitFits flight s) (topic : Topic) : TransmitFits flight (answerRecall s topic).1 := by
  unfold Machine.answerRecall
  split
  · rename_i p found
    dsimp only
    split
    · refine (h.removeItem (.recallItem topic)).updRecall p fun _ on => ?_
      have same : (s.cont.recalls[p]).topic = topic := (recallAt_some found).2
      have gone := not_mem_listed_removeItem s (.recallItem topic)
      exact absurd (same ▸ on) gone
    · rename_i sent
      exact h.updRecall p fun waiting => absurd waiting sent
  · exact h

theorem continuityAtFrame (h : TransmitFits flight s) (own : Bool) (f : Frame) :
    TransmitFits flight (continuityAtFrame own f s).1 := by
  unfold Machine.continuityAtFrame
  split
  · exact h.answerRecall _
  · split
    · exact h
    · exact h.suppressRecall _
  all_goals exact h

end TransmitFits

end Sys2Proof.Machine
end

section
/-! The transmit list at the start and the end of an attempt, at a refusal and at a frame end (R134). -/

namespace Sys2Proof.Machine

/-- The entry of publication `i` changes beside what `itemsFit` says of it only through item, state and mark. -/
theorem listed_setPubs_of_items {s t : State} (items : t.pubs.items = s.pubs.items) : listed t = listed s := by
  unfold listed
  rw [items]

/-- The entry of a publication after the clean end of its item: freed when it was WITHDRAWING (R127). -/
theorem updateSent_eq_if (s : State) (i : PubIndex) (repeated : Bool) : updateSent s i repeated =
    if (s.pubs.table[i]).state = .withdrawing then s.updPub i fun _ => PubEntry.initial
    else
      let e := (s.pubs.table[i]).cleanEnd repeated
      let s1 := s.updPub i fun _ => { e with rePend := false }
      if e.rePend = true ∧ s.session.state = .member then makePendingNew s1 i else s1 := by
  unfold updateSent
  dsimp only
  rw [PubEntry.cleanEnd_state]
  cases (s.pubs.table[i]).state <;> rfl

/-- The entry of a publication after a collision of its item that is not the sixteenth (R128). -/
theorem updateCollided_eq_if (s : State) (i : PubIndex) : updateCollided s i =
    if (s.pubs.table[i]).state = .withdrawing then removeItem (s.updPub i fun _ => PubEntry.initial) (.update i)
    else if s.session.state = .leaving then
      removeItem (s.updPub i fun e => { e.clearMarks with inFlight := false, item := none }) (.update i)
    else s.updPub i fun e => { e with inFlight := false, rePend := false } := by
  unfold updateCollided
  cases (s.pubs.table[i]).state <;> rfl

/-- The flight that an attempt for an item makes (R28). -/
def flightOf (s : State) (it : Item) : Flight :=
  { kind := it.kind, latchedRepeat := latchesRepeat s it.kind, covered := encodeFrame (latchedFrame s it.kind) }

namespace TransmitFits
variable {flight : Option Flight} {f : Flight} {s t : State}

/-! ## Attempts -/

/-- The last of a flight is the change of its own publication, unlisted and no longer marked. -/
theorem landUpdate (h : TransmitFits (some f) s) {i : PubIndex} (kind : f.kind = .update i)
    (unlisted : .update i ∉ listed s) {g : PubEntry → PubEntry} (unmarked : ∀ e, (g e).inFlight = false) :
    TransmitFits none (s.updPub i g) := by
  refine (h.updPub i (fun hi => absurd hi unlisted) fun set => ?_).land fun j same => ?_
  · rw [unmarked] at set
    cases set
  · cases kind.symm.trans same
    rw [updPub_entry, if_pos rfl]
    exact ⟨unmarked _, fun hi => absurd hi unlisted⟩

theorem landOther (h : TransmitFits (some f) s) (other : ∀ i, f.kind ≠ .update i) : TransmitFits none s :=
  h.land fun i same => absurd same (other i)

theorem recallSent (h : TransmitFits flight s) {topic : Topic} (unlisted : .recallItem topic ∉ listed s) :
    TransmitFits flight (recallSent s topic) := by
  unfold Machine.recallSent
  split
  · rename_i p found
    have same : (s.cont.recalls[p]).topic = topic := (recallAt_some found).2
    exact h.updRecall p fun _ on => absurd (same ▸ on) unlisted
  · exact h

theorem recallAbandoned (h : TransmitFits flight s) {topic : Topic} (unlisted : .recallItem topic ∉ listed s) :
    TransmitFits flight (recallAbandoned s topic).1 := by
  unfold Machine.recallAbandoned
  split
  · rename_i p found
    have same : (s.cont.recalls[p]).topic = topic := (recallAt_some found).2
    exact h.updRecall p fun _ on => absurd (same ▸ on) unlisted
  · exact h

theorem updateSent (h : TransmitFits (some f) s) {i : PubIndex} (kind : f.kind = .update i)
    (unlisted : .update i ∉ listed s) (repeated : Bool) : TransmitFits none (updateSent s i repeated) := by
  have unmarked : ∀ e : PubEntry, (e.cleanEnd repeated).inFlight = false := fun e => by
    unfold PubEntry.cleanEnd
    dsimp only
    split <;> rfl
  rw [updateSent_eq_if]
  split
  · exact h.landUpdate kind unlisted fun _ => rfl
  · have landed := h.landUpdate kind unlisted
      (g := fun _ => { (s.pubs.table[i]).cleanEnd repeated with rePend := false }) fun _ => unmarked _
    dsimp only
    split
    · exact landed.makePendingNew i
    · exact landed

theorem updateAbandoned (h : TransmitFits (some f) s) {i : PubIndex} (kind : f.kind = .update i)
    (unlisted : .update i ∉ listed s) : TransmitFits none (updateAbandoned s i) := by
  refine h.landUpdate kind unlisted fun e => ?_
  split <;> rfl

theorem updateCollided (h : TransmitFits (some f) s) {i : PubIndex} (kind : f.kind = .update i) :
    TransmitFits none (updateCollided s i) := by
  have dropped : ∀ {g : PubEntry → PubEntry}, (∀ e, (g e).inFlight = false) →
      TransmitFits none (Machine.removeItem (s.updPub i g) (.update i)) := fun unmarked =>
    (h.removeItem (.update i)).landUpdate kind (not_mem_listed_removeItem s _) unmarked
  rw [updateCollided_eq_if]
  split
  · exact dropped fun _ => rfl
  · rename_i state
    split
    · exact dropped fun _ => rfl
    · refine (h.updPub i (fun hi => h.updates i hi) fun set => absurd set Bool.false_ne_true).land fun j same => ?_
      cases kind.symm.trans same
      rw [updPub_entry, if_pos rfl]
      refine ⟨rfl, fun hi => ?_⟩
      obtain ⟨-, active | ⟨withdrawing, -⟩⟩ := h.updates i hi
      · exact active
      · exact absurd withdrawing state

theorem ownerClean (h : TransmitFits (some f) s) (unlisted : f.kind ∉ listed s) : TransmitFits none (ownerClean f s) := by
  unfold Machine.ownerClean
  split
  · rename_i topic kind
    exact (h.recallSent (kind ▸ unlisted)).landOther fun i => by rw [kind]; exact nofun
  · rename_i i kind
    exact h.updateSent kind (kind ▸ unlisted) _
  · rename_i kind
    exact h.landOther fun i => by rw [kind]; exact nofun
  · rename_i kind
    exact h.landOther fun i => by rw [kind]; exact nofun
  · rename_i kind
    exact h.landOther fun i => by rw [kind]; exact nofun

theorem cleanEnd (h : TransmitFits (some f) s) (flying : s.access.inFlight = some f) : TransmitFits none (cleanEnd s) := by
  rw [cleanEnd_of_flight flying]
  refine ownerClean ((h.removeItem f.kind).of_same rfl rfl rfl rfl) ?_
  exact not_mem_listed_removeItem s f.kind

theorem refuse (h : TransmitFits flight s) (reason : RefusalReason) : TransmitFits flight (refuse reason s).1 := by
  have stopped : TransmitFits flight (Machine.stopSending (s.setSession
      { s.session with state := .refused, listenWindow := none, presenceTimer := none })) :=
    stopSending h.covered h.flags nofun
  have empty : (Machine.refuse reason s).1.pubs.items = [] := rfl
  exact of_empty empty stopped.flags h.covered nofun

theorem leaveComplete : TransmitFits none (leaveComplete s).1 := by
  have pubs : (Machine.leaveComplete s).1.pubs = (pubsLeft (releaseFrame (epochLeft (cancelRecalls s).1).1)).pubs := rfl
  refine of_empty (by rw [pubs]; rfl) (fun i set => ?_) nofun fun _ => rfl
  rw [pubs] at set
  unfold pubsLeft at set
  rw [setPubs_pubs] at set
  dsimp only at set
  rw [tabMap_getElem] at set
  cases set

theorem abandon (h : TransmitFits (some f) s) : TransmitFits none (abandon f.kind s).1 := by
  have removed := h.removeItem f.kind
  have unlisted := not_mem_listed_removeItem s f.kind
  unfold Machine.abandon
  rw [andThen_fst]
  dsimp only
  generalize Machine.removeItem s f.kind = u at removed unlisted
  unfold ownerAbandoned
  split
  · rename_i kind
    have landed := removed.landOther fun i => by rw [kind]; exact nofun
    split
    · exact landed.refuse _
    · exact landed
  · rename_i kind
    exact removed.landOther fun i => by rw [kind]; exact nofun
  · rename_i kind
    exact (removed.setEpoch (u := u.epoch.settled) fun _ on => absurd on (kind ▸ unlisted)).landOther fun i => by
      rw [kind]; exact nofun
  · rename_i kind
    exact (removed.recallAbandoned (kind ▸ unlisted)).landOther fun i => by rw [kind]; exact nofun
  · rename_i kind
    exact removed.updateAbandoned kind (kind ▸ unlisted)

theorem ownerCollided (h : TransmitFits (some f) s) : TransmitFits none (ownerCollided f.kind s) := by
  have removed : TransmitFits (some f) (if s.session.state = .leaving then Machine.removeItem s f.kind else s) := by
    split
    · exact h.removeItem _
    · exact h
  unfold Machine.ownerCollided
  dsimp only
  generalize (if s.session.state = .leaving then Machine.removeItem s f.kind else s) = u at removed
  split
  · rename_i kind
    exact removed.landOther fun i => by rw [kind]; exact nofun
  · rename_i kind
    exact removed.landOther fun i => by rw [kind]; exact nofun
  · rename_i kind
    exact removed.landOther fun i => by rw [kind]; exact nofun
  · rename_i kind
    exact (removed.setEpoch (u := { u.epoch with request := .waiting }) fun _ _ => nofun).landOther fun i => by
      rw [kind]; exact nofun
  · rename_i kind
    exact removed.updateCollided kind

theorem jamOutcome (h : TransmitFits (some f) s) : TransmitFits none (jamOutcome f s).1 := by
  have landed : TransmitFits (some f) ((s.setLine s.line.afterJam).setAccess { s.access with inFlight := none }) :=
    h.of_same rfl rfl rfl rfl
  unfold Machine.jamOutcome
  dsimp only
  generalize (s.setLine s.line.afterJam).setAccess { s.access with inFlight := none } = u at landed
  split
  · exact landed.abandon
  · exact landed.ownerCollided

theorem latchedFrame_kind (s : State) (k : ItemKind) : (latchedFrame s k).body.kind = k.frameKind := by
  cases k with
  | update i =>
    unfold latchedFrame PubEntry.latch
    dsimp only
    split <;> rfl
  | claim => rfl
  | presence d => rfl
  | epoch => rfl
  | recallItem topic => rfl

/-- An item takes off. -/
theorem takeOff (h : TransmitFits none s) (f : Flight)
    (covered : ∃ fr, f.covered = encodeFrame fr ∧ fr.body.kind = f.kind.frameKind)
    (inUse : s.session.state ≠ .offline) : TransmitFits (some f) s := by
  refine ⟨h.distinct, fun i hi => ?_, h.recalls, h.epoch, h.claim, fun i set => ?_, fun f' same => ?_, fun offline =>
    absurd offline inUse⟩
  · obtain ⟨item, active | ⟨-, f', same, -⟩⟩ := h.updates i hi
    · exact ⟨item, .inl active⟩
    · cases same
  · obtain ⟨f', same, -⟩ := h.flags i set
    cases same
  · cases same
    exact covered

theorem startAttempt (h : TransmitFits none s) (it : Item) (inUse : s.session.state ≠ .offline) :
    TransmitFits (startAttempt s it).access.inFlight (startAttempt s it) := by
  have flying := h.takeOff (flightOf s it) ⟨_, rfl, latchedFrame_kind s it.kind⟩ inUse
  have noted : TransmitFits (some (flightOf s it)) (noteLatch s it.kind) := by
    unfold noteLatch
    split
    · exact flying.setEpoch fun _ _ => nofun
    · rename_i i kind
      exact flying.updPub i (flying.updates i) fun _ => ⟨_, rfl, kind⟩
    all_goals exact flying
  exact noted.of_same rfl rfl rfl rfl

/-! ## The session -/

theorem restartPresence (h : TransmitFits flight s) : TransmitFits flight (restartPresence s) :=
  h.of_same rfl rfl rfl rfl

theorem enterMember (h : TransmitFits flight s) (unlisted : .claim ∉ listed s) :
    TransmitFits flight (enterMember s).1 := by
  have entered : TransmitFits flight (s.setSession { s.session with state := .member }) :=
    h.setSession (fun on => absurd on unlisted) nofun
  have restarted := entered.restartPresence
  unfold Machine.enterMember
  dsimp only
  generalize Machine.restartPresence _ = u at restarted ⊢
  exact restarted.announce

theorem startClaiming (h : TransmitFits flight s) (listening : s.session.state = .listening) :
    TransmitFits flight (startClaiming s) := by
  have unlisted : .claim ∉ listed s := fun on => by
    have claiming := h.claim on
    rw [listening] at claiming
    rcases claiming with claiming | claiming <;> cases claiming
  have started : TransmitFits flight (s.setSession { s.session with state := .claiming, listenWindow := none }) :=
    h.setSession (fun on => absurd on unlisted) nofun
  refine placeWith (k := .claim) started _ 0 (fun x hx same => unlisted ?_) nofun nofun nofun
    fun _ => rfl
  cases x <;> cases same
  exact hx

theorem not_presence_listed (none : ∀ it ∈ s.pubs.items, it.isPresence = false) (d : Bool) : .presence d ∉ listed s := by
  rintro on
  obtain ⟨it, mem, kind⟩ := mem_listed.mp on
  have not := none it mem
  unfold Item.isPresence at not
  rw [kind] at not
  cases not

theorem presenceExpiry (h : TransmitFits flight s) : TransmitFits flight (presenceExpiry s) := by
  unfold Machine.presenceExpiry
  dsimp only
  split
  · exact h.restartPresence
  · rename_i none
    refine h.restartPresence.placePresence false _ 0 (not_presence_listed fun it mem => ?_)
    rw [← Bool.not_eq_true]
    exact fun isPresence => none (List.any_eq_true.mpr ⟨it, mem, isPresence⟩)

theorem defend (h : TransmitFits flight s) : TransmitFits flight (defend s) := by
  unfold Machine.defend
  split
  · rename_i none
    exact h.placePresence true 0 0 (not_presence_listed fun it mem => by
      simpa using List.find?_eq_none.mp none it mem)
  · rename_i it found
    split
    · exact h
    · rename_i normal
      refine (h.removeItem (.presence false)).placePresence true 0 _ fun d on => ?_
      have stays := listed_removeItem_subset on
      have isPresence := List.find?_some found
      have mem := List.mem_of_find?_eq_some found
      obtain ⟨it', mem', kind'⟩ := mem_listed.mp stays
      cases d with
      | false => exact not_mem_listed_removeItem s _ on
      | true =>
        cases kind : it.kind with
        | presence d =>
          cases d with
          | true => exact normal kind
          | false =>
            have both : ItemKind.presence false ∈ listed s := mem_listed.mpr ⟨it, mem, kind⟩
            have : Std.Symm fun a b : ItemKind => a.place ≠ b.place := ⟨fun _ _ ne => ne.symm⟩
            exact h.distinct.forall both stays nofun rfl
        | _ =>
          unfold Item.isPresence at isPresence
          rw [kind] at isPresence
          cases isPresence

end TransmitFits

end Sys2Proof.Machine
end

section
/-! The transmit list and what it names, after every step (R133, R134): the clauses, the frame end, and O57. -/

namespace Sys2Proof.Machine

namespace TransmitFits
variable {flight : Option Flight} {s t : State}

/-- Timers and other parts of publications and recalls change. -/
theorem of_parts (h : TransmitFits flight s) (list : listed t = listed s)
    (entry : ∀ i : PubIndex, (t.pubs.table[i]).item = (s.pubs.table[i]).item ∧
      (t.pubs.table[i]).state = (s.pubs.table[i]).state ∧ (t.pubs.table[i]).inFlight = (s.pubs.table[i]).inFlight)
    (waiting : ∀ p : RecallPos, (t.cont.recalls[p]).state = (s.cont.recalls[p]).state ∧
      (t.cont.recalls[p]).topic = (s.cont.recalls[p]).topic)
    (request : t.epoch.request = s.epoch.request) (state : t.session.state = s.session.state) : TransmitFits flight t := by
  refine ⟨?_, fun i hi => ?_, fun topic ht => ?_, ?_, ?_, fun i => ?_, h.covered, ?_⟩
  · rw [list]
    exact h.distinct
  · obtain ⟨item, state, -⟩ := entry i
    rw [item, state]
    exact h.updates i (list ▸ hi)
  · obtain ⟨p, waits, same⟩ := h.recalls topic (list ▸ ht)
    exact ⟨p, (waiting p).1.trans waits, (waiting p).2.trans same⟩
  · rw [list, request]
    exact h.epoch
  · rw [list, state]
    exact h.claim
  · rw [(entry i).2.2]
    exact h.flags i
  · rw [state]
    exact h.offline

theorem tick (h : TransmitFits flight s) : TransmitFits flight (tick s) := by
  refine h.of_parts (listed_setPubs_of_items (tick_items s)) (fun i => ?_) (fun p => ?_) rfl rfl
  · rw [tick_pub]
    exact ⟨rfl, rfl, rfl⟩
  · rw [tick_recall]
    exact ⟨rfl, rfl⟩

end TransmitFits

theorem listed_countAttempt (s : State) (k : ItemKind) : listed (countAttempt s k) = listed s := by
  unfold listed countAttempt
  rw [setPubs_pubs, List.map_map]
  refine List.map_congr_left fun it _ => ?_
  dsimp only [Function.comp]
  split <;> rfl

/-! ## The item in flight after a step -/

theorem itemsFit_of_same {s t : State} (pubs : t.pubs = s.pubs) (recalls : t.cont.recalls = s.cont.recalls)
    (request : t.epoch.request = s.epoch.request) (state : t.session.state = s.session.state)
    (flight : t.access.inFlight = s.access.inFlight) (h : itemsFit s) : itemsFit t := by
  rw [itemsFit_iff] at h ⊢
  rw [flight]
  exact h.of_same pubs recalls request state

/-- A change that leaves the item in flight. -/
theorem itemsFit_of_transmitFits {s t : State} (flight : t.access.inFlight = s.access.inFlight)
    (change : TransmitFits s.access.inFlight s → TransmitFits s.access.inFlight t) (h : itemsFit s) : itemsFit t := by
  rw [itemsFit_iff] at h ⊢
  rw [flight]
  exact change h

theorem itemsFit_of_idle {t : State} (idle : t.access.inFlight = none) (h : TransmitFits none t) : itemsFit t := by
  rw [itemsFit_iff, idle]
  exact h

theorem jamOutcome_inFlight (f : Flight) (s : State) : (jamOutcome f s).1.access.inFlight = none := by
  unfold jamOutcome
  dsimp only
  generalize hu : (s.setLine s.line.afterJam).setAccess { s.access with inFlight := none } = u
  have none : u.access.inFlight = none := hu ▸ rfl
  split
  · unfold abandon
    rw [andThen_fst]
    dsimp only
    unfold ownerAbandoned
    split
    · split <;> exact none
    · exact none
    · exact none
    · rw [recallAbandoned_eq]
      exact none
    · exact none
  · rw [ownerCollided_eq]
    exact none

theorem presenceExpiry_access (s : State) : (presenceExpiry s).access = s.access := by
  unfold presenceExpiry
  dsimp only
  split <;> rfl

/-! ## The clauses -/

/-- The recall list and the transmit list fit. -/
def transmits (s : State) : Prop := s.cont.recallsFit ∧ itemsFit s

theorem transmits_of_initial {t : State} (recalls : t.cont.recallsFit) (empty : t.pubs = PublicationUnit.initial)
    (idle : t.access.inFlight = none) : transmits t := by
  refine ⟨recalls, itemsFit_of_idle idle (TransmitFits.of_empty (by rw [empty]; rfl) (fun i set => ?_) nofun fun _ => rfl)⟩
  rw [empty] at set
  unfold PublicationUnit.initial at set
  simp [PubEntry.initial] at set

theorem not_offline_of_permission {s : State} (permitted : permission s = true) : s.session.state ≠ .offline := by
  intro offline
  unfold permission at permitted
  rw [offline] at permitted
  cases permitted

theorem headerEvent_leaves (s : State) (r : Reception) (rx : Receiver) :
    (headerEvent s r rx).pubs = s.pubs ∧ (headerEvent s r rx).cont = s.cont ∧ (headerEvent s r rx).epoch = s.epoch ∧
      (headerEvent s r rx).session = s.session ∧ (headerEvent s r rx).access = s.access := by
  unfold headerEvent matchingWalk
  rw [walk_eq]
  exact ⟨rfl, rfl, rfl, rfl, rfl⟩

theorem transmits_kept : Kept transmits where
  hardReset s h fits := transmits_of_initial initial_recallsFit rfl rfl
  hold s h fits := fits
  softReset s fits := transmits_of_initial initial_recallsFit rfl rfl
  tick s fits := ⟨(tick_fitsAfter s).recalls fits.1, itemsFit_of_transmitFits (s := s) rfl (·.tick) fits.2⟩
  port s p _ _ fits := fits
  post s n fits := by
    refine ⟨(post_fitsAfter s n).recalls fits.1, itemsFit_of_same ?_ ?_ ?_ ?_ ?_ fits.2⟩
    · rw [post_pubs]
    · rw [post_cont]
    · rw [post_epoch]
    · rw [post_session]
    · rw [post_access]
  readNotice s n rest _ fits := fits
  line s x _ _ fits := ⟨fits.1, itemsFit_of_same (s := s) rfl rfl rfl rfl rfl fits.2⟩
  access s a _ _ flight fits := ⟨fits.1, itemsFit_of_same (s := s) rfl rfl rfl rfl flight fits.2⟩
  rescore s n _ fits := ⟨fits.1, itemsFit_of_same rfl rfl rfl rfl rfl fits.2⟩
  countAttempt s k fits := ⟨fits.1, itemsFit_of_transmitFits (s := s) rfl
    (fun h => h.of_sublist (by rw [listed_countAttempt]) rfl rfl rfl rfl) fits.2⟩
  startAttempt s it _ idle permitted _ fits := by
    refine ⟨(startAttempt_fitsAfter s it).recalls fits.1, ?_⟩
    have h := (itemsFit_iff s).mp fits.2
    rw [idle] at h
    exact (itemsFit_iff _).mpr (h.startAttempt it (not_offline_of_permission permitted))
  jamOutcome s f flying _ fits := by
    refine ⟨(jamOutcome_fitsAfter f s).recalls fits.1, itemsFit_of_idle (jamOutcome_inFlight f s) ?_⟩
    have h := (itemsFit_iff s).mp fits.2
    rw [flying] at h
    exact h.jamOutcome
  leaveComplete s _ fits := ⟨(leaveComplete_fitsAfter s).recalls fits.1, itemsFit_of_idle rfl TransmitFits.leaveComplete⟩
  leaving s _ fits := ⟨fits.1, itemsFit_of_transmitFits (s := s) rfl (fun h => h.setSession (fun _ => .inr rfl) nofun) fits.2⟩
  headerEvent s r r' rx _ _ fits := by
    obtain ⟨pubs, cont, epoch, session, access⟩ := headerEvent_leaves s r' rx
    exact ⟨cont ▸ fits.1, itemsFit_of_same pubs (by rw [cont]) (by rw [epoch]) (by rw [session]) (by rw [access]) fits.2⟩
  startClaiming s listening fits := ⟨fits.1, itemsFit_of_transmitFits (s := s) rfl (·.startClaiming listening) fits.2⟩
  presenceExpiry s _ fits := ⟨(presenceExpiry_fitsAfter s).recalls fits.1,
    itemsFit_of_transmitFits (by rw [presenceExpiry_access]) (·.presenceExpiry) fits.2⟩
  silentPeer s x _ fits := fits
  goStale s k reason _ fits := ⟨fits.1, itemsFit_of_same (s := s) rfl rfl rfl rfl rfl fits.2⟩
  setLimit s k limit fits := ⟨fits.1, itemsFit_of_same (s := s) rfl rfl rfl rfl rfl fits.2⟩
  readSlot s k fits := ⟨fits.1, itemsFit_of_same (s := s) rfl rfl rfl rfl rfl fits.2⟩
  requestRecall s topic o fits := ⟨(requestRecall_fitsAfter s topic o).recalls fits.1,
    itemsFit_of_transmitFits (by rw [requestRecall_eq]; rfl) (·.requestRecall topic o) fits.2⟩
  recallExpiry s p waits fits := ⟨(recallExpiry_fitsAfter s p waits).recalls fits.1,
    itemsFit_of_transmitFits (by rw [recallExpiry_eq]; rfl) (·.recallExpiry fits.1 waits) fits.2⟩
  recallOrigin s p busy fits :=
    ⟨(updRecall_fitsAfter s p (fun _ => ⟨busy, rfl⟩) fun free => absurd free busy).recalls fits.1,
      itemsFit_of_transmitFits (s := s) rfl (·.updRecall p fun waiting _ => ⟨waiting, rfl⟩) fits.2⟩
  makeRecall s p topic o absent free fits := ⟨(makeRecall_fitsAfter s p topic o absent).recalls fits.1,
    itemsFit_of_transmitFits (s := s) rfl (·.makeRecall o absent free) fits.2⟩
  periodicExpiry s i fits := ⟨(periodicExpiry_fitsAfter s i).recalls fits.1,
    itemsFit_of_transmitFits (by rw [periodicExpiry_eq]; rfl) (·.periodicExpiry i) fits.2⟩
  holdOff s i fits := ⟨fits.1, itemsFit_of_transmitFits (s := s) rfl (·.updPub_of_same i rfl rfl id) fits.2⟩
  configure s args r _ _ fits := ⟨fits.1, itemsFit_of_same (s := s) rfl rfl rfl rfl rfl fits.2⟩
  join s r offline _ fits := by
    have h := (itemsFit_iff s).mp fits.2
    rw [h.offline offline] at h
    have unlisted : .claim ∉ listed s := fun on => by
      have claiming := h.claim on
      rw [offline] at claiming
      rcases claiming with claiming | claiming <;> cases claiming
    have joined : TransmitFits none (s.setSession { s.session with
        frozen := true, state := .listening, listenWindow := millis (r.listenMultiple * r.presenceInterval * 10) }) :=
      h.setSession (fun on => absurd on unlisted) nofun
    exact ⟨fits.1, itemsFit_of_idle rfl (joined.of_same rfl rfl rfl rfl)⟩
  sub s i f fits := ⟨fits.1, itemsFit_of_same (s := s) rfl rfl rfl rfl rfl fits.2⟩
  takeRecords s q n _ fits := ⟨fits.1, itemsFit_of_same (s := s) rfl rfl rfl rfl rfl fits.2⟩
  clearOverflow s q fits := ⟨fits.1, itemsFit_of_same (s := s) rfl rfl rfl rfl rfl fits.2⟩
  declare s i topic c m period value free unowned fits := ⟨(declareAt_fitsAfter s i _ unowned).recalls fits.1,
    itemsFit_of_transmitFits (by rw [declareAt_eq]; rfl) (·.declareAt free rfl) fits.2⟩
  write s i value active fits := ⟨(writeEntry_fitsAfter s i value).recalls fits.1,
    itemsFit_of_transmitFits (by rw [writeEntry_eq]; rfl) (·.writeEntry active value) fits.2⟩
  withdraw s i active fits := ⟨(withdrawAt_fitsAfter s i active).recalls fits.1,
    itemsFit_of_transmitFits (by rw [withdrawAt_eq]; rfl) (·.withdrawAt i) fits.2⟩
  freeYielded s i yielded fits := ⟨fits.1, itemsFit_of_transmitFits (s := s) rfl (·.freeYielded yielded) fits.2⟩
  requestEpoch s idle fits := by
    refine ⟨fits.1, itemsFit_of_transmitFits (s := s) rfl (fun h => ?_) fits.2⟩
    have unlisted : .epoch ∉ listed s := fun on => h.epoch on idle
    refine TransmitFits.placeWith (k := .epoch) (h.setEpoch (u := { s.epoch with request := .waiting }) fun _ _ => nofun) _ 0
      (fun x hx same => unlisted ?_) nofun nofun (fun _ => nofun) nofun
    cases x <;> cases same
    exact hx
  openBank s b _ _ fits := ⟨fits.1, itemsFit_of_same (s := s) rfl rfl rfl rfl rfl fits.2⟩
  releaseBank s b _ fits := ⟨fits.1, itemsFit_of_same (s := s) rfl rfl rfl rfl rfl fits.2⟩

end Sys2Proof.Machine
end

section
/-! The transmit list at a frame end (R30, R134), and O57. -/

namespace Sys2Proof.Machine

/-! ## A CLEAN frame as it was sent -/

/-- What a CLEAN verdict rests on (R12). -/
theorem judge_clean {rx : Receiver} {f : Frame} (clean : judge rx = .clean f) :
    rx.phase ≠ .endedJam ∧ rx.missingStop = false ∧ firstByteValid (rx.chars.getD 0 0) = true ∧
      expectedLength rx.chars = some rx.chars.length ∧ f = parseFrame rx.chars := by
  unfold judge at clean
  split at clean
  · cases clean
  · rename_i idle
    split at clean
    · cases clean
    · rename_i formed
      dsimp only at clean
      split at clean
      · cases clean
        simp only [Bool.or_eq_true, Bool.not_eq_true', bne_iff_ne, not_or, Bool.not_eq_true, ne_eq, not_not,
          Bool.not_eq_false] at formed
        obtain ⟨⟨⟨stop, -⟩, first⟩, length⟩ := formed
        exact ⟨idle, stop, first, length, rfl⟩
      · cases clean

theorem FrameBody.code_le (b : FrameBody) : b.code ≤ 5 := by
  cases b <;> simp [FrameBody.code]

/-- The first byte of a frame holds its kind and its class (R8). -/
theorem encodeFrame_head_toNat (f : Frame) :
    ((withCheck (encodeFrame f)).getD 0 0).toNat = 16 * f.body.code + f.cls.val := by
  have code := f.body.code_le
  have cls := f.cls.isLt
  show (byteOf (16 * f.body.code + f.cls.val)).toNat = _
  unfold byteOf
  rw [BitVec.toNat_ofNat, Nat.mod_eq_of_lt (by omega)]

/-- A frame read from the bytes of another is of its kind. -/
theorem parseFrame_kind (f : Frame) : (parseFrame (withCheck (encodeFrame f))).body.kind = f.body.kind := by
  have head := encodeFrame_head_toNat f
  have cls := f.cls.isLt
  unfold parseFrame
  dsimp only
  generalize (withCheck (encodeFrame f)).getD 0 0 = b at head
  have high : b.toNat / 16 = f.body.code := by omega
  rw [high]
  cases f.body <;> rfl

/-- An own frame is CLEAN only while it is compared, and is then of the kind of the item in flight (R16, R30). -/
theorem ownClean_flight {s : State} {r : Reception} {rx : Receiver} {f : Frame} (fits : itemsFit s) (own : r.own = true)
    (asSent : r.own = true → comparing s = true → endsAsSent s rx = true) (clean : outcomeOf s r rx = .clean f) :
    ∃ x, s.access.inFlight = some x ∧ f.body.kind = x.kind.frameKind := by
  have judged : judge rx = .clean f ∧ comparing s = true := by
    unfold outcomeOf at clean
    split at clean
    · rename_i f' judged
      split at clean
      · cases clean
      · rename_i compared
        cases clean
        exact ⟨judged, by simpa [own] using compared⟩
    all_goals cases clean
  obtain ⟨judged, compared⟩ := judged
  have ended := asSent own compared
  unfold comparing at compared
  unfold endsAsSent sentBytes at ended
  cases flying : s.access.inFlight with
  | none =>
    rw [flying] at compared
    cases compared
  | some x =>
    rw [flying] at ended
    simp only [Bool.and_eq_true, beq_iff_eq] at ended
    obtain ⟨fr, covered, kind⟩ := ((itemsFit_iff s).mp fits).covered x flying
    refine ⟨x, rfl, ?_⟩
    rw [(judge_clean judged).2.2.2.2, ended.2, covered, parseFrame_kind, kind]

/-! ## What the blocks add to the list -/

theorem listed_makePendingNew {s : State} {i : PubIndex} {k : ItemKind} (on : k ∈ listed (makePendingNew s i)) :
    k ∈ listed s ∨ k = .update i := by
  unfold makePendingNew at on
  dsimp only at on
  split at on
  · split at on
    · obtain same | on := mem_listed_placeItem.mp on
      · exact .inr same
      · exact .inl on
    · exact .inl on
    · exact .inl on
  · exact .inl on

theorem listed_announce {s : State} {k : ItemKind} (on : k ∈ listed (announce s)) : k ∈ listed s ∨ ∃ i, k = .update i := by
  unfold announce at on
  generalize List.finRange 32 = is at on
  induction is generalizing s with
  | nil => exact .inl on
  | cons i is ih =>
    obtain on | update := ih on
    · unfold announceEntry at on
      split at on
      · obtain on | same := listed_makePendingNew (s := s.updPub i _) (i := i) on
        · exact .inl on
        · exact .inr ⟨i, same⟩
      · exact .inl on
    · exact .inr update

theorem not_listed_updateSent {s : State} {i : PubIndex} {repeated : Bool} {k : ItemKind} (other : ∀ j, k ≠ .update j)
    (unlisted : k ∉ listed s) : k ∉ listed (updateSent s i repeated) := by
  rw [updateSent_eq_if]
  split
  · exact unlisted
  · dsimp only
    split
    · intro on
      obtain on | same := listed_makePendingNew on
      · exact unlisted on
      · exact other i same
    · exact unlisted

/-- After the clean end of an attempt the item is not listed, unless as a new UPDATE. -/
theorem not_listed_cleanEnd {s : State} {f : Flight} (flying : s.access.inFlight = some f) {k : ItemKind}
    (other : ∀ j, k ≠ .update j) (same : f.kind = k) : k ∉ listed (cleanEnd s) := by
  rw [cleanEnd_of_flight flying]
  have unlisted : k ∉ listed (((removeItem s f.kind).setAccess { s.access with inFlight := none }).setLine
      { s.line with send := .off }) := same ▸ not_mem_listed_removeItem s f.kind
  generalize ((removeItem s f.kind).setAccess { s.access with inFlight := none }).setLine
      { s.line with send := .off } = u at unlisted
  unfold ownerClean
  split
  · rw [recallSent_eq]
    exact unlisted
  · exact not_listed_updateSent other unlisted
  all_goals exact unlisted

theorem cleanEnd_inFlight (s : State) : (cleanEnd s).access.inFlight = none := by
  cases flying : s.access.inFlight with
  | none =>
    rw [cleanEnd_of_none flying]
    exact flying
  | some f =>
    rw [cleanEnd_of_flight flying, ownerClean_eq]
    rfl

theorem frameKind_eq_claim {k : ItemKind} (h : k.frameKind = .claim) : k = .claim := by
  cases k <;> first | rfl | cases h

theorem frameKind_eq_epoch {k : ItemKind} (h : k.frameKind = .epoch) : k = .epoch := by
  cases k <;> first | rfl | cases h

/-! ## The blocks in turn -/

/-- The lists fit, and of an own CLAIM or EPOCH that has ended CLEAN no item is left. -/
def ownSettled (own : Bool) (f : Frame) (s : State) : Prop :=
  transmits s ∧ (own = true → (f.body.kind = .claim → .claim ∉ listed s) ∧ (f.body.kind = .epoch → .epoch ∉ listed s))

theorem setBase_transmits {s : State} (c : FrameClass) (x : Station) (h : transmits s) : transmits (setBase s c x) :=
  ⟨h.1, itemsFit_of_same (s := s) rfl rfl rfl rfl rfl h.2⟩

theorem lowerScore_transmits {s : State} (n : Nat) (h : transmits s) : transmits (lowerScore s n).1 :=
  ⟨h.1, itemsFit_of_same (s := s) rfl rfl rfl rfl rfl h.2⟩

theorem cleanEnd_transmits {s : State} (h : transmits s) : transmits (cleanEnd s) := by
  cases flying : s.access.inFlight with
  | none =>
    rw [cleanEnd_of_none flying]
    exact h
  | some f =>
    have fits := (itemsFit_iff s).mp h.2
    rw [flying] at fits
    exact ⟨(cleanEnd_fitsAfter s).recalls h.1, itemsFit_of_idle (cleanEnd_inFlight s) (fits.cleanEnd flying)⟩

theorem accessAtFrame_settled {own : Bool} {f : Frame} {s : State} (h : transmits s)
    (flight : own = true → ∃ x, s.access.inFlight = some x ∧ f.body.kind = x.kind.frameKind) :
    ownSettled own f (accessAtFrame own f s).1 := by
  have based := setBase_transmits f.cls f.source h
  cases own with
  | true =>
    obtain ⟨x, flying, kind⟩ := flight rfl
    refine ⟨lowerScore_transmits 2 (cleanEnd_transmits based), fun _ => ⟨fun claim => ?_, fun epoch => ?_⟩⟩
    · exact not_listed_cleanEnd (s := setBase s f.cls f.source) flying nofun (frameKind_eq_claim (kind.symm.trans claim))
    · exact not_listed_cleanEnd (s := setBase s f.cls f.source) flying nofun (frameKind_eq_epoch (kind.symm.trans epoch))
  | false =>
    refine ⟨?_, nofun⟩
    unfold accessAtFrame
    dsimp only
    rw [if_neg Bool.false_ne_true]
    split
    · exact lowerScore_transmits 1 based
    · exact based

theorem refuse_access (reason : RefusalReason) (s : State) :
    (refuse reason s).1.access = { s.access with booking := none } := rfl

theorem refuse_transmits (reason : RefusalReason) {s : State} (h : transmits s) : transmits (refuse reason s).1 :=
  ⟨(refuse_fitsAfter reason s).recalls h.1,
    itemsFit_of_transmitFits (by rw [refuse_access]) (·.refuse reason) h.2⟩

theorem defend_transmits {s : State} (h : transmits s) : transmits (defend s) :=
  ⟨(defend_fitsAfter s).recalls h.1, itemsFit_of_transmitFits (by rw [defend_eq]; rfl) (·.defend) h.2⟩

theorem restartPresence_transmits {s : State} (h : transmits s) : transmits (restartPresence s) :=
  ⟨h.1, itemsFit_of_same (s := s) rfl rfl rfl rfl rfl h.2⟩

theorem enterMember_access (s : State) : (enterMember s).1.access = s.access := by
  unfold enterMember
  dsimp only
  rw [announce_eq]
  rfl

theorem enterMember_settled {s : State} {f : Frame} (claim : .claim ∉ listed s) (isClaim : f.body.kind = .claim)
    (h : transmits s) : ownSettled true f (enterMember s).1 := by
  refine ⟨⟨(enterMember_fitsAfter s).recalls h.1, itemsFit_of_transmitFits (by rw [enterMember_access])
    (·.enterMember claim) h.2⟩, fun _ => ⟨fun _ on => ?_, fun epoch => ?_⟩⟩
  · have before : .claim ∉ listed (restartPresence (s.setSession { s.session with state := .member })) := claim
    unfold enterMember at on
    dsimp only at on
    generalize restartPresence _ = u at before on
    obtain on | ⟨i, same⟩ := listed_announce on
    · exact before on
    · cases same
  · rw [isClaim] at epoch
    cases epoch

theorem sessionAtFrame_settled {own : Bool} {f : Frame} {s : State} (h : ownSettled own f s) :
    ownSettled own f (sessionAtFrame own f s).1 := by
  obtain ⟨fits, gone⟩ := h
  cases own with
  | true =>
    show ownSettled true f (ownCleanEnd f s).1
    unfold ownCleanEnd
    split
    · rename_i body
      have kind : f.body.kind = .claim := by rw [body]; rfl
      exact enterMember_settled ((gone rfl).1 kind) kind fits
    · exact ⟨restartPresence_transmits fits, gone⟩
    · exact ⟨fits, gone⟩
  | false =>
    refine ⟨?_, nofun⟩
    unfold sessionAtFrame
    rw [if_neg Bool.false_ne_true]
    split
    · unfold foreignOwnNumber
      split
      · exact refuse_transmits _ fits
      · exact refuse_transmits _ fits
      · unfold answerDuplicate
        split
        · exact defend_transmits fits
        · dsimp only
          split
          · exact refuse_transmits _ fits
          · split <;> exact defend_transmits fits
        all_goals exact defend_transmits fits
      all_goals exact fits
    · exact fits

/-- What leaves list, publications, recalls, request, station state and flight. -/
theorem ownSettled_of_same {own : Bool} {f : Frame} {s t : State} (pubs : t.pubs = s.pubs)
    (recalls : t.cont.recalls = s.cont.recalls) (epoch : t.epoch = s.epoch) (session : t.session = s.session)
    (access : t.access = s.access) (h : ownSettled own f s) : ownSettled own f t := by
  refine ⟨⟨?_, itemsFit_of_same pubs recalls (by rw [epoch]) (by rw [session]) (by rw [access]) h.1.2⟩, ?_⟩
  · unfold ContinuityUnit.recallsFit
    rw [recalls]
    exact h.1.1
  · unfold listed
    rw [pubs]
    exact h.2

theorem identifyPeer_recalls (s : State) (x : Station) (caution : Bool) (last : Option SeqNo) (tag : UnitTag) :
    (identifyPeer s x caution last tag).1.cont.recalls = s.cont.recalls := by
  unfold identifyPeer
  dsimp only
  split <;> rfl

theorem rosterAtFrame_recalls (own : Bool) (f : Frame) (s : State) :
    (rosterAtFrame own f s).1.cont.recalls = s.cont.recalls := by
  unfold rosterAtFrame
  split
  · rfl
  · split
    · rfl
    · unfold hearPeer
      dsimp only
      split
      · rw [andThen_fst]
        exact identifyPeer_recalls _ _ _ _ _
      · rw [andThen_fst]
        exact identifyPeer_recalls _ _ _ _ _
      all_goals rfl

theorem rosterAtFrame_settled {own : Bool} {f : Frame} {s : State} (h : ownSettled own f s) :
    ownSettled own f (rosterAtFrame own f s).1 := by
  refine ownSettled_of_same ?_ (rosterAtFrame_recalls own f s) ?_ (rosterAtFrame_session own f s) ?_ h
  all_goals
    rw [rosterAtFrame_eq]
    rfl

theorem trackClassified_recalls (s : State) (x : Station) (topic : Topic) (seq : SeqNo) (c : Option Classification) :
    (trackClassified s x topic seq c).cont.recalls = s.cont.recalls := by
  cases c <;> rfl

theorem recordMark_cont (s : State) : (recordMark s).1.cont = s.cont := by
  unfold recordMark
  split <;> rfl

theorem closeFrame_cont (s : State) : (closeFrame s).cont = s.cont := by rw [closeFrame_eq, setAccept_cont]

/-- The tracker after a CLEAN UPDATE with a header (R76). -/
theorem settleUpdate_cont (own : Bool) (x : Station) (topic : Topic) (seq : SeqNo) (a b : Bool) (payload : List Byte)
    (s : State) : (settleUpdate own x topic seq a b payload s).1.cont =
      (trackClassified s x topic seq (frameClassification s x topic seq a)).cont := by
  unfold settleUpdate
  dsimp only
  rw [closeFrame_cont, recordMark_cont, settleTargets_eq, setStore_cont]

theorem acceptanceAtFrame_recalls (own headerSeen : Bool) (f : Frame) (s : State) :
    (acceptanceAtFrame own headerSeen f s).1.cont.recalls = s.cont.recalls := by
  unfold acceptanceAtFrame
  split
  · split
    · rw [settleUpdate_cont, trackClassified_recalls]
    all_goals rw [releaseFrame_cont]
  · rfl

namespace AcceptanceChanged
variable {s t : State}

theorem pubs (h : AcceptanceChanged s t) : t.pubs = s.pubs := by
  rw [h]
  rfl

theorem epoch (h : AcceptanceChanged s t) : t.epoch = s.epoch := by
  rw [h]
  rfl

theorem access (h : AcceptanceChanged s t) : t.access = s.access := by
  rw [h]
  rfl

theorem line (h : AcceptanceChanged s t) : t.line = s.line := by
  rw [h]
  rfl

end AcceptanceChanged

theorem acceptanceAtFrame_settled {own headerSeen : Bool} {f : Frame} {s : State} (h : ownSettled own f s) :
    ownSettled own f (acceptanceAtFrame own headerSeen f s).1 :=
  have changed := acceptanceAtFrame_changed own headerSeen f s
  ownSettled_of_same changed.pubs (acceptanceAtFrame_recalls own headerSeen f s) changed.epoch changed.session
    changed.access h

theorem publicationAtFrame_settled {own : Bool} {f : Frame} {s : State} (h : ownSettled own f s) :
    ownSettled own f (publicationAtFrame own f s).1 := by
  cases own with
  | true => exact h
  | false =>
    exact ⟨⟨(publicationAtFrame_fitsAfter false f s).recalls h.1.1,
      itemsFit_of_transmitFits (by rw [publicationAtFrame_eq]; rfl) (·.publicationAtFrame false f) h.1.2⟩, nofun⟩

theorem listed_answerRecall {s : State} {topic : Topic} {k : ItemKind} (on : k ∈ listed (answerRecall s topic).1) :
    k ∈ listed s := by
  unfold answerRecall at on
  split at on
  · dsimp only at on
    split at on
    · exact listed_removeItem_subset on
    · exact on
  · exact on

theorem continuityAtFrame_settled {own : Bool} {f : Frame} {s : State} (h : ownSettled own f s) :
    ownSettled own f (continuityAtFrame own f s).1 := by
  refine ⟨⟨(continuityAtFrame_fitsAfter own f s).recalls h.1.1,
    itemsFit_of_transmitFits (by rw [continuityAtFrame_eq]; rfl) (·.continuityAtFrame own f) h.1.2⟩, fun isOwn => ?_⟩
  obtain ⟨claim, epoch⟩ := h.2 isOwn
  have fewer : ∀ {k}, k ∈ listed (continuityAtFrame own f s).1 → k ∈ listed s := fun on => by
    unfold continuityAtFrame at on
    split at on
    · exact listed_answerRecall on
    · rw [if_pos isOwn] at on
      exact on
    all_goals exact on
  exact ⟨fun kind on => claim kind (fewer on), fun kind on => epoch kind (fewer on)⟩

theorem capture_request (s : State) (e : SeqNo) (x : Station) :
    (capture s e x).1.epoch.request = s.epoch.request := by
  unfold capture
  split
  · rfl
  · split
    · rfl
    · dsimp only
      split <;> rfl

theorem epochAtFrame_transmits {own : Bool} {f : Frame} {s : State} (h : ownSettled own f s) :
    transmits (epochAtFrame own f s).1 := by
  refine ⟨(epochAtFrame_fitsAfter own f s).recalls h.1.1, itemsFit_of_transmitFits (by rw [epochAtFrame_eq]; rfl)
    (fun fits => ?_) h.1.2⟩
  unfold epochAtFrame
  split
  · rename_i e body
    have captured : TransmitFits s.access.inFlight (capture s e f.source).1 := by
      refine fits.of_same ?_ ?_ (capture_request s e f.source) ?_
      all_goals
        rw [capture_eq]
        rfl
    have list : listed (capture s e f.source).1 = listed s := by
      rw [capture_eq]
      rfl
    rw [andThen_fst]
    generalize (capture s e f.source).1 = u at captured list
    unfold settleRequest
    split
    · rename_i isOwn
      have unlisted : .epoch ∉ listed u := by
        rw [list]
        exact (h.2 isOwn).2 (by rw [body]; rfl)
      exact captured.setEpoch fun _ on => absurd on unlisted
    · split
      · exact (captured.removeItem .epoch).setEpoch fun _ on => absurd on (not_mem_listed_removeItem u _)
      · exact captured
  all_goals exact fits

theorem cleanFrame_transmits {own headerSeen : Bool} {f : Frame} {s : State} (h : transmits s)
    (flight : own = true → ∃ x, s.access.inFlight = some x ∧ f.body.kind = x.kind.frameKind) :
    transmits (cleanFrame own headerSeen f s) := by
  have settled : ownSettled own f (afterAcceptance own headerSeen f s) :=
    acceptanceAtFrame_settled (rosterAtFrame_settled (sessionAtFrame_settled (accessAtFrame_settled h flight)))
  have acted : transmits (afterBlocks own headerSeen f s) :=
    epochAtFrame_transmits (continuityAtFrame_settled (publicationAtFrame_settled settled))
  obtain ⟨ns, n, same⟩ := cleanFrame_eq own headerSeen f s
  rw [same]
  exact transmits_kept.postAll ns ⟨acted.1, itemsFit_of_same (s := afterBlocks own headerSeen f s) rfl rfl rfl rfl rfl acted.2⟩

theorem dropFrame_transmits {headerSeen : Bool} {s : State} (h : transmits s) : transmits (dropFrame headerSeen s) := by
  unfold dropFrame
  split
  · refine ⟨?_, itemsFit_of_same (releaseFrame_pubs s) ?_ ?_ ?_ ?_ h.2⟩
    · rw [releaseFrame_cont]
      exact h.1
    · rw [releaseFrame_cont]
    · rw [releaseFrame_epoch]
    · rw [releaseFrame_session]
    · rw [releaseFrame_access]
  · exact h

theorem transmits_keptAtEnd : KeptAtEnd transmits := by
  intro levels r rx s receiving asSent h
  have implied := transmits_kept.impliedHeader levels receiving h
  have flight : (impliedHeader levels s r).1.access.inFlight = s.access.inFlight := by
    unfold impliedHeader
    split
    · rfl
    · split
      · rw [(headerEvent_leaves s r _).2.2.2.2]
      · rfl
  have ownFlight := fun f own clean => ownClean_flight (f := f) h.2 own asSent clean
  unfold endFrame
  dsimp only
  generalize outcomeOf s r rx = o at ownFlight
  generalize impliedHeader levels s r = p at implied flight
  have closed : transmits (closeReception p.1 rx) := ⟨implied.1, itemsFit_of_same (s := p.1) rfl rfl rfl rfl rfl implied.2⟩
  refine transmits_kept.settleBooking (transmits_kept.leaveAfterFrame _ _ ?_)
  cases o with
  | broken => exact dropFrame_transmits ⟨closed.1, itemsFit_of_same (s := closeReception p.1 rx) rfl rfl rfl rfl rfl closed.2⟩
  | malformed => exact transmits_kept.done (transmits_kept.raiseScore 1 (dropFrame_transmits closed))
  | checkFailed => exact transmits_kept.done (transmits_kept.raiseScore 1 (dropFrame_transmits closed))
  | clean f => exact cleanFrame_transmits closed fun own => flight ▸ ownFlight f own rfl

/-- Settles O57: the order is that in which items are placed; and an item is listed only while its owner has it, which every
change of an owner sees to, the end of an own frame because the frame that ended is of the item in flight. -/
theorem transmitListStaysOrdered : Obligations.TransmitListStaysOrdered := by
  refine ⟨fun s t ordered next => ?_, fun s t recalls items next => ?_⟩
  · obtain ⟨q, n, fits⟩ := step_fitsAfter next
    exact fits.ordered ordered
  · exact (transmits_kept.step transmits_keptAtEnd (fun s q n fits =>
      ⟨fits.1, itemsFit_of_same (s := s) rfl rfl rfl rfl rfl fits.2⟩) next ⟨recalls, items⟩).2

end Sys2Proof.Machine
end

section
/-! The step, the resets, the pins of the host port and the commands that are refused (10.1 to 10.3, 10.8, 12.4, 12.5). -/

namespace Sys2Proof.Machine

/-! ## The step -/

/-- Settles O1: a queue with a command at its front is not empty. -/
theorem stepRunsTheFrontCommand : Obligations.StepRunsTheFrontCommand := fun c rest s queue => by
  unfold step
  rw [queue]

/-! ## Resets (R186, R187, R192) -/

theorem hardReset_held (h : ResetHold) (s : State) : (hardReset h s).held = (h.power || h.pinLow || h.left.isSome) := rfl

/-- With no mask no level condition asserts ATTN (R184). -/
theorem hardReset_attn (h : ResetHold) (s : State) : attn (hardReset h s) = false := by
  have mask : (hardReset h s).port.mask = 0 := rfl
  have notices : (hardReset h s).port.notices = [] := rfl
  unfold attn
  rw [mask, notices]
  simp

theorem hardReset_statusByte (h : ResetHold) (s : State) : statusByte (hardReset h s) = 0x81 := by
  have released := hardReset_attn h s
  have state : (hardReset h s).port.state = .ready := rfl
  have lost : (hardReset h s).port.lost = false := rfl
  have notTaken : (hardReset h s).port.lastNotTaken = false := rfl
  have malformed : (hardReset h s).port.lastMalformed = false := rfl
  unfold statusByte
  rw [released, state, lost, notTaken, malformed]
  rfl

theorem sdoDriven_of_held {s : State} (held : s.held = true) : sdoDriven s = false := by
  unfold sdoDriven
  rw [held]
  rfl

theorem due_of_held {s : State} (held : s.held = true) : due s = dueReset s := if_pos held

theorem step_of_idle {s : State} (empty : s.pending = []) : step s = .next (idle s) := by
  unfold step
  rw [empty]

/-- The 50 microseconds are counted (R192, log 4). -/
theorem step_of_counting {s : State} {n : Nat} (empty : s.pending = []) (left : s.hold.left = some (n + 1)) :
    step s = .next { s with hold := { s.hold with left := some n } } := by
  have held : s.held = true := by
    unfold State.held
    rw [left]
    simp
  have none : due s = [] := by
    rw [due_of_held held]
    unfold dueReset ResetHold.canEnd dueIf
    rw [left]
    simp
  rw [step_of_idle empty]
  unfold idle
  rw [none]
  dsimp only
  rw [if_pos held, holdTick_eq, left]
  rfl

/-- After them RESET_END is due (R192). -/
theorem step_of_counted {s : State} (empty : s.pending = []) (pin : s.hold.pinLow = false) (power : s.hold.power = false)
    (left : s.hold.left = some 0) : step s = .next { s with pending := [.resetEnd], free := s.free + 1 } := by
  have held : s.held = true := by
    unfold State.held
    rw [left]
    simp
  have only : due s = [.resetEnd] := by
    rw [due_of_held held]
    unfold dueReset dueIf
    rw [if_pos ((canEnd_iff _).mpr ⟨power, pin, left⟩)]
  rw [step_of_idle empty]
  unfold idle
  rw [only]
  dsimp only
  rw [List.length_nil, Nat.zero_add, Nat.mod_one]
  rfl

/-- Settles O4: the end of a reset gives each block its initial value; before it only the hold changes. -/
theorem resetEndGivesInitialValues : Obligations.ResetEndGivesInitialValues := by
  intro s
  refine ⟨fun power pin left => ?ends, fun power => ?afterPower, fun power counting => ?waits, fun empty pin power =>
    ⟨fun n left => step_of_counting empty left, step_of_counted empty pin power⟩⟩
  case ends =>
    refine ⟨hardReset ResetHold.over s, execResetEnd_of_canEnd s ((canEnd_iff _).mpr ⟨power, pin, left⟩), rfl, rfl, rfl, rfl, rfl,
      rfl, rfl, rfl, rfl, rfl, rfl, rfl, rfl, ?_, rfl, rfl, rfl, rfl, rfl, ?_, ?_, rfl, rfl, ?_, ?_, ?_, rfl, rfl, ?_, rfl,
      rfl, rfl, rfl, ?_, rfl, rfl, rfl, rfl, rfl, rfl, hardReset_attn _ s, hardReset_statusByte _ s⟩
    all_goals
      intro i
      exact Vector.getElem_replicate _
  case afterPower =>
    exact execResetEnd_of_power s power
  case waits =>
    refine execResetEnd_of_counting s power ?_
    rw [← Bool.not_eq_true, canEnd_iff]
    rintro ⟨-, pin, left⟩
    obtain low | ⟨n, more⟩ := counting
    · rw [pin] at low
      cases low
    · rw [left] at more
      cases more

/-- Settles O5: a hold of the part is a reset of every block. -/
theorem resetPinAndPowerOnHoldThePart : Obligations.ResetPinAndPowerOnHoldThePart := by
  intro s
  refine ⟨?powerOn, fun n rises taken => ?pin, fun n rises short high => ?ignored⟩
  case powerOn =>
    refine ⟨_, rfl, rfl, rfl, hardReset_attn _ s, rfl, rfl, rfl, rfl, rfl, sdoDriven_of_held rfl, rfl, rfl⟩
  case pin =>
    have held : (hardReset (s.hold.atPin rises) s).held = true := by
      rw [hardReset_held]
      unfold ResetHold.atPin
      cases rises <;> simp
    refine ⟨hardReset (s.hold.atPin rises) s, congrArg Host.Outcome.next (if_pos taken), held, rfl, hardReset_attn _ s, rfl, rfl,
      rfl, rfl, rfl, sdoDriven_of_held held, ?_, fun up => ?_, fun low => ?_⟩
    · cases rises <;> rfl
    · subst up
      exact ⟨rfl, rfl⟩
    · subst low
      exact ⟨rfl, rfl⟩
  case ignored =>
    refine congrArg Host.Outcome.next (if_neg ?_)
    rw [high]
    rintro (long | low)
    · omega
    · cases low

/-- Settles O6: the command that resets is itself executing, so that the flags set since its SEL rise are kept. -/
theorem softResetKeepsTheRecord : Obligations.SoftResetKeepsTheRecord := by
  rintro s ⟨running, executing⟩
  rw [exec_softReset_of_executes ⟨running, executing⟩]
  have port : s.port.softReset = { HostPort.initial with
      lastNotTaken := s.port.notTakenSince, lastMalformed := s.port.malformedSince,
      notTakenSince := s.port.notTakenSince, malformedSince := s.port.malformedSince,
      sel := s.port.sel, sdo := s.port.sdo } := by
    unfold HostPort.softReset
    rw [executing]
    simp [PortState.isExecuting]
  unfold softResetBody answered
  dsimp only
  rw [port]
  rfl

/-! ## The driver (R15) -/

/-- Settles O10. -/
theorem sendEndReleasesTheDriver : Obligations.SendEndReleasesTheDriver := by
  intro s n running sending
  refine ⟨s.setLine { s.line with send := .off }, ?_, rfl, rfl⟩
  show execSendEnd s = _
  unfold execSendEnd whenRunning
  rw [if_neg (by rw [running]; exact nofun)]
  dsimp only
  rw [sending]

/-! ## Status byte and level conditions (R170, R182, R184, 12.3, 12.4) -/

/-- Settles O29: SEL's fall outside reset captures the status byte and the answer that waits. -/
theorem selectFallCapturesTheStatus : Obligations.SelectFallCapturesTheStatus := by
  intro s running high
  refine ⟨captureStatus s, ?_, rfl, rfl, rfl, fun r waiting => ?_, fun none => ?_⟩
  · show execTransactionBegin s = _
    unfold execTransactionBegin fallenSelect
    rw [high, running]
    rfl
  · unfold captureStatus
    rw [waiting]
  · unfold captureStatus
    dsimp only
    split
    · rename_i r waiting
      exact absurd waiting (none r)
    all_goals rfl

theorem getLsbD_rawConditions (s : State) (n : Nat) (low : n < 10) : (rawConditions s).getLsbD n =
    ((List.finRange 8).map (atWatermark s) ++ [slotChanged s, snapshotReady s]).getD n false := by
  unfold rawConditions
  rw [BitVec.getLsbD_ofNat, testBit_flagNat, decide_eq_true low, Bool.true_and]

theorem atWatermark_iff (s : State) (q : QueueNo) : atWatermark s q = true ↔
    ∃ r, s.session.record = some r ∧ r.quotas[q] ≠ 0 ∧ r.watermarks[q] ≤ (s.store.queues[q]).records.length := by
  unfold atWatermark watermarkOf quotaOf
  cases s.session.record with
  | none => simp
  | some r =>
    dsimp only
    simp only [Bool.and_eq_true, decide_eq_true_eq, Option.some.injEq, exists_eq_left']
    generalize r.quotas[q] = quota
    generalize r.watermarks[q] = mark
    split <;> omega

theorem getLsbD_statusByte (s : State) (n : Nat) : (statusByte s).getLsbD n =
    [s.port.state == .ready,
      (match s.port.state with | .executing _ _ => true | .ready | .responseWaiting _ => false),
      (match s.port.state with | .responseWaiting _ => true | .ready | .executing _ _ => false),
      attn s, s.port.lost, s.port.lastNotTaken, s.port.lastMalformed, true].getD n false := by
  unfold statusByte
  rw [getLsbD_flagByte (by simp)] <;> rfl

theorem tabAny_iff {α : Type} {n : Nat} (p : α → Bool) (v : Vector α n) : tabAny p v = true ↔ ∃ i : Fin n, p v[i] = true := by
  unfold tabAny
  simp

/-- Settles O32: the bits of the status byte and of the ten conditions are those of their lists. -/
theorem statusByteNamesThePortState : Obligations.StatusByteNamesThePortState := by
  intro s
  refine ⟨?_, ?_, ?_, ?_, ?_, ?_, ?_, ?_, ?_, fun q => ?_, ?_, ?_⟩
  · rw [getLsbD_statusByte s 7]
    rfl
  · rw [getLsbD_statusByte s 0]
    exact beq_iff_eq
  · rw [getLsbD_statusByte s 1]
    cases s.port.state <;> simp
  · rw [getLsbD_statusByte s 2]
    cases s.port.state <;> simp
  · rw [getLsbD_statusByte s 3]
    rfl
  · rw [getLsbD_statusByte s 4]
    rfl
  · rw [getLsbD_statusByte s 5]
    rfl
  · rw [getLsbD_statusByte s 6]
    rfl
  · cases held : s.held with
    | true => simp [attn, held]
    | false => simp [attn_iff held]
  · rw [getLsbD_rawConditions s q.val (by omega), ← atWatermark_iff]
    refine Eq.to_iff (congrArg (· = true) ?_)
    rw [List.getD_append _ _ _ _ (by simp), List.getD_eq_getElem _ _ (by simp)]
    simp
  · rw [getLsbD_rawConditions s 8 (by decide)]
    exact tabAny_iff _ _
  · rw [getLsbD_rawConditions s 9 (by decide)]
    show snapshotReady s = true ↔ _
    unfold snapshotReady
    simp only [tabAny_iff, beq_iff_eq]

/-! ## READ SUBSCRIPTION and unknown codes -/

/-- READ SUBSCRIPTION in the port is taken by the Acceptance Unit (R67, R174). -/
theorem exec_readSubscription_of_executes {s : State} {args : List Byte} (h : Executes s 0x22 args) :
    exec (.readSubscription args) s = .next (answered (readSubscriptionBody args s).1 (readSubscriptionBody args s).2) :=
  congrArg Host.Outcome.next (takeCommand_executes (readSubscriptionBody args) h)

theorem readSubscriptionBody_of_index {b : Byte} {i : SubIndex} (s : State) (index : b.toNat = i.val) :
    readSubscriptionBody [b] s = (s, okData (s.accept.table[i]).bytes) := by
  simp [readSubscriptionBody, indexOf_eq_some index]

theorem readSubscriptionBody_of_above {b : Byte} (s : State) (above : 31 < b.toNat) :
    readSubscriptionBody [b] s = refuseWith s .badArgument := by
  simp [readSubscriptionBody, indexOf_eq_none (Nat.succ_le_of_lt above)]

/-- Settles O36: an index up to 31 is answered with the entry's bytes, an index above it is refused. -/
theorem readSubscriptionReturnsTheEntry : Obligations.ReadSubscriptionReturnsTheEntry := by
  refine ⟨rfl, fun s b executes => ⟨fun i index => ?entry, fun above => ?refused⟩⟩
  case entry =>
    rw [exec_readSubscription_of_executes executes, readSubscriptionBody_of_index s index]
    rfl
  case refused =>
    rw [exec_readSubscription_of_executes executes, readSubscriptionBody_of_above s above]
    rfl

end Sys2Proof.Machine
end

section
/-! Transactions at the host port (10.1 to 10.5), refused commands and unknown codes (10.3, 10.8). -/

namespace Sys2Proof.Machine

/-! ## Transactions -/

theorem transactionEnd_of_low {s : State} {c : Captured} (low : s.port.sel = .low c) (act : Captured → State → State) :
    transactionEnd s act = act c s := by
  unfold transactionEnd openedTransaction
  rw [low]

theorem exec_commandTransaction_of_low {s : State} {c : Captured} (low : s.port.sel = .low c) {code : Byte}
    (isCode : code ≠ 0) (rest : List Byte) (trailing : Nat) :
    exec (.commandTransaction (code :: rest) trailing) s = .next (commandEnd (code :: rest) trailing c s) := by
  show execCommandTransaction (code :: rest) trailing s = _
  unfold execCommandTransaction
  dsimp only
  rw [if_neg isCode, transactionEnd_of_low low]

/-- A command transaction is well formed exactly when its length byte counts the bytes behind it (R172). -/
theorem wellFormedTransaction_iff (code : Byte) (rest : List Byte) (trailing : Nat) :
    wellFormedTransaction (code :: rest) trailing = true ↔
      trailing = 0 ∧ ∃ len args, rest = len :: args ∧ args.length = len.toNat := by
  unfold wellFormedTransaction
  cases rest with
  | nil => simp
  | cons len args =>
    simp only [List.length_cons, Bool.and_eq_true, beq_iff_eq, decide_eq_true_eq, List.getD_cons_succ,
      List.getD_cons_zero]
    constructor
    · rintro ⟨⟨none, -⟩, length⟩
      exact ⟨none, len, args, rfl, by omega⟩
    · rintro ⟨none, len', args', same, length⟩
      cases same
      exact ⟨⟨none, by omega⟩, by omega⟩

/-- A well-formed command is taken in READY (R172, R173). -/
theorem commandEnd_of_ready {s : State} {c : Captured} {code len : Byte} {args : List Byte}
    (length : args.length = len.toNat) (ready : s.port.state = .ready) :
    commandEnd (code :: len :: args) 0 c s =
      let s1 := showStatus s c (c.status :: List.replicate (args.length + 1) 0)
      s1.setPort { s1.port with state := .executing code args, notTakenSince := false, malformedSince := false } := by
  have formed := (wellFormedTransaction_iff code (len :: args) 0).mpr ⟨rfl, len, args, rfl, length⟩
  unfold commandEnd
  dsimp only
  rw [if_pos formed]
  unfold showStatus HostPort.shown
  simp [ready]

/-- In another port state it is not taken (R173). -/
theorem commandEnd_of_busy {s : State} {c : Captured} {code len : Byte} {args : List Byte}
    (length : args.length = len.toNat) (busy : s.port.state ≠ .ready) :
    commandEnd (code :: len :: args) 0 c s =
      let s1 := showStatus s c (c.status :: List.replicate (args.length + 1) 0)
      s1.setPort { s1.port with lastNotTaken := true, notTakenSince := true } := by
  have formed := (wellFormedTransaction_iff code (len :: args) 0).mpr ⟨rfl, len, args, rfl, length⟩
  unfold commandEnd
  dsimp only
  rw [if_pos formed]
  split
  · rename_i ready
    exact absurd ready busy
  all_goals rfl

/-- A malformed one is discarded (R172). -/
theorem commandEnd_of_malformed {s : State} {c : Captured} {code : Byte} {rest : List Byte} {trailing : Nat}
    (malformed : wellFormedTransaction (code :: rest) trailing = false) :
    commandEnd (code :: rest) trailing c s =
      let s1 := showStatus s c (c.status :: List.replicate rest.length 0)
      s1.setPort { s1.port with lastMalformed := true, malformedSince := true } := by
  unfold commandEnd
  dsimp only
  rw [if_neg (by rw [malformed]; exact nofun)]
  rfl

/-- Settles O30: a transaction is well formed and taken, well formed and not taken, or malformed. -/
theorem commandTransactionIsJudged : Obligations.CommandTransactionIsJudged := by
  rintro s c _ trailing code rest low rfl isCode
  refine ⟨_, exec_commandTransaction_of_low low isCode rest trailing, ?_, ?_, fun unformed => ?_⟩
  · cases formed : wellFormedTransaction (code :: rest) trailing with
    | false =>
      rw [commandEnd_of_malformed formed]
      rfl
    | true =>
      obtain ⟨rfl, len, args, rfl, length⟩ := (wellFormedTransaction_iff code rest trailing).mp formed
      by_cases ready : s.port.state = .ready
      · rw [commandEnd_of_ready length ready]
        rfl
      · rw [commandEnd_of_busy length ready]
        rfl
  · rintro len args rfl length rfl
    refine ⟨fun ready => ?_, fun busy => ?_⟩
    · rw [commandEnd_of_ready length ready]
      exact ⟨rfl, rfl, rfl, rfl, rfl⟩
    · rw [commandEnd_of_busy length busy]
      exact ⟨rfl, rfl, rfl, rfl, rfl⟩
  · have malformed : wellFormedTransaction (code :: rest) trailing = false := by
      rw [← Bool.not_eq_true, wellFormedTransaction_iff]
      rintro ⟨whole, len, args, same, length⟩
      obtain wrong | more := unformed
      · exact wrong len args same length
      · exact more whole
    rw [commandEnd_of_malformed malformed]
    exact ⟨rfl, rfl, rfl, rfl, rfl⟩

theorem fetchEnd_port (whole : Nat) (c : Captured) (s : State) :
    fetchEnd whole c s = s.setPort { s.port.shown c with
      sel := .high, sdo := fetchOut c whole,
      state := if clockedWhole c whole = true then .ready else s.port.state } := by
  unfold fetchEnd showStatus
  dsimp only
  split <;> rfl

/-- Settles O31: what a fetch shifts out, and that it is over for the port when the whole response was clocked. -/
theorem fetchShiftsOutTheResponse : Obligations.FetchShiftsOutTheResponse := by
  refine ⟨fun s c whole trailing low => ⟨fun some => ?_, rfl⟩, rfl⟩
  have next : exec (.fetchTransaction whole trailing) s = .next (fetchEnd whole c s) := by
    show execFetchTransaction whole s = _
    unfold execFetchTransaction
    rw [if_neg (by omega), transactionEnd_of_low low]
  rw [fetchEnd_port] at next
  refine ⟨_, next, rfl, fun r answer => ⟨?_, fun clocked => ?_, fun short => ?_⟩, fun answer => ⟨?_, ?_⟩⟩
  · show fetchOut c whole = _
    unfold fetchOut
    rw [answer]
    rfl
  · refine if_pos ?_
    unfold clockedWhole
    rw [answer]
    exact decide_eq_true clocked
  · refine if_neg ?_
    unfold clockedWhole
    rw [answer]
    simpa using short
  · show fetchOut c whole = _
    unfold fetchOut
    rw [answer]
    rfl
  · refine if_neg ?_
    unfold clockedWhole
    rw [answer]
    exact nofun

end Sys2Proof.Machine
end

section
/-! The commands of the host as one family (10.3, 12.5): which body a code has, that a refusal changes nothing, and that a wrong
number of arguments is refused before anything else. -/

namespace Sys2Proof.Machine

/-- What the owner of a code does with its arguments (12.5). -/
def bodyOf (code : Byte) (args : List Byte) (s : State) : State × Response :=
  match code.toNat with
  | 0x01 => configureBody args s
  | 0x02 => joinBody args s
  | 0x03 => leaveBody args s
  | 0x04 => statusBody args s
  | 0x05 => softResetBody args s
  | 0x06 => setAttentionMaskBody args s
  | 0x07 => readNoticeBody args s
  | 0x10 => readRosterBody args s
  | 0x20 => subscribeBody args s
  | 0x21 => unsubscribeBody args s
  | 0x22 => readSubscriptionBody args s
  | 0x30 => popBody args s
  | 0x31 => peekBody args s
  | 0x32 => flushBody args s
  | 0x33 => queueStatusBody args s
  | 0x40 => readSlotBody args s
  | 0x41 => listChangedSlotsBody args s
  | 0x50 => declareBody args s
  | 0x51 => writeValueBody args s
  | 0x52 => withdrawBody args s
  | 0x53 => readPublicationBody args s
  | 0x60 => recallBody args s
  | 0x70 => epochBody args s
  | 0x71 => snapshotOpenBody args s
  | 0x72 => snapshotReadBody args s
  | 0x73 => snapshotReleaseBody args s
  | _ => refuseWith s .unknownCommand

/-- A code is known exactly when the table names it. -/
theorem isUnknownCode_iff (code : Byte) : isUnknownCode code = true ↔ code ≠ 0 ∧ code.toNat ∉ knownCodes := by
  unfold isUnknownCode
  simp

theorem exec_unknownCommand_of_unknown {code : Byte} (unknown : isUnknownCode code = true) (args : List Byte) (s : State) :
    exec (.unknownCommand code args) s = .next (takeCommand s code args fun s => refuseWith s .unknownCommand) :=
  congrArg Host.Outcome.next (if_pos unknown)

theorem exec_unknownCommand_of_known {code : Byte} (known : isUnknownCode code = false) (args : List Byte) (s : State) :
    exec (.unknownCommand code args) s = .next s :=
  congrArg Host.Outcome.next (if_neg (by rw [known]; exact nofun))

/-- The command of a known code is taken by the owner of the code. -/
theorem exec_commandOf_of_known {code : Byte} (known : code.toNat ∈ knownCodes) (args : List Byte) (s : State) :
    exec (commandOf code args) s = .next (takeCommand s code args (bodyOf code args)) := by
  have value : ∀ n, code.toNat = n → code = BitVec.ofNat 8 n := fun n same => by
    rw [← same, BitVec.ofNat_toNat, BitVec.setWidth_eq]
  simp only [knownCodes, List.mem_cons, List.not_mem_nil, or_false] at known
  rcases known with h | h | h | h | h | h | h | h | h | h | h | h | h | h | h | h | h | h | h | h | h | h | h | h | h | h
  all_goals
    rw [value _ h]
    rfl

theorem commandOf_of_unknown {code : Byte} (unknown : code.toNat ∉ knownCodes) (args : List Byte) :
    commandOf code args = .unknownCommand code args := by
  unfold commandOf
  split
  all_goals first | rfl | exact absurd (by simp_all [knownCodes]) unknown

/-- A code that the table does not name is its own command. -/
theorem unknown_of_commandOf {code : Byte} (unknown : ∀ args, commandOf code args = .unknownCommand code args) :
    code.toNat ∉ knownCodes := by
  intro known
  have named := unknown []
  simp only [knownCodes, List.mem_cons, List.not_mem_nil, or_false] at known
  rcases known with h | h | h | h | h | h | h | h | h | h | h | h | h | h | h | h | h | h | h | h | h | h | h | h | h | h
  all_goals
    unfold commandOf at named
    rw [h] at named
    cases named

/-- Settles O50. -/
theorem unknownCommandIsAnsweredAsUnknown : Obligations.UnknownCommandIsAnsweredAsUnknown := by
  intro s code args isCode unnamed executes
  have unknown := (isUnknownCode_iff code).mpr ⟨isCode, unknown_of_commandOf unnamed⟩
  rw [exec_unknownCommand_of_unknown unknown, takeCommand_executes _ executes]
  rfl

/-! ## Refusals -/

/-- An answer that is a refusal leaves the state as it was. -/
def RefusesPlainly (s : State) (p : State × Response) : Prop :=
  p.2.code = .ok ∨ p.2.code = .pending ∨ p = refuseWith s p.2.code

@[simp] theorem refusesPlainly_refuse (s : State) (code : StatusCode) : RefusesPlainly s (refuseWith s code) := .inr (.inr rfl)
@[simp] theorem refusesPlainly_ok (s t : State) : RefusesPlainly s (t, plain .ok) := .inl rfl
@[simp] theorem refusesPlainly_okData (s t : State) (data : List Byte) : RefusesPlainly s (t, okData data) := .inl rfl
@[simp] theorem refusesPlainly_pending (s t : State) : RefusesPlainly s (t, plain .pending) := .inr (.inl rfl)

theorem bodyOf_refusesPlainly (code : Byte) (args : List Byte) (s : State) : RefusesPlainly s (bodyOf code args s) := by
  unfold bodyOf
  split
  · fun_cases configureBody args s <;> simp
  · fun_cases joinBody args s <;> simp
  · fun_cases leaveBody args s <;> simp
  · fun_cases statusBody args s <;> simp
  · fun_cases softResetBody args s <;> simp
  · fun_cases setAttentionMaskBody args s <;> simp
  · fun_cases readNoticeBody args s <;> simp
  · fun_cases readRosterBody args s <;> simp
  · fun_cases subscribeBody args s <;> simp
  · fun_cases unsubscribeBody args s <;> simp
  · fun_cases readSubscriptionBody args s <;> simp
  · fun_cases popBody args s <;> simp
  · fun_cases peekBody args s <;> simp
  · fun_cases flushBody args s <;> simp
  · fun_cases queueStatusBody args s <;> simp
  · fun_cases readSlotBody args s <;> simp
  · fun_cases listChangedSlotsBody args s <;> simp
  · fun_cases declareBody args s <;> simp
  · fun_cases writeValueBody args s <;> simp
  · fun_cases withdrawBody args s <;> simp
  · fun_cases readPublicationBody args s <;> simp
  · fun_cases recallBody args s <;> simp
  · fun_cases epochBody args s <;> simp
  · fun_cases snapshotOpenBody args s <;> simp
  · fun_cases snapshotReadBody args s <;> simp
  · fun_cases snapshotReleaseBody args s <;> simp
  · exact refusesPlainly_refuse s _

/-- The number of argument bytes of the commands that have a fixed one (12.5). -/
def fixedArguments : List (Byte × Nat) :=
  [(0x01, 27), (0x02, 0), (0x03, 0), (0x04, 0), (0x05, 0), (0x06, 2), (0x07, 0), (0x10, 1), (0x20, 11), (0x21, 1), (0x22, 1),
    (0x30, 1), (0x31, 1), (0x32, 1), (0x33, 2), (0x40, 1), (0x41, 0), (0x52, 1), (0x53, 1), (0x60, 2), (0x70, 0), (0x71, 0),
    (0x72, 1), (0x73, 0)]

section
variable {args : List Byte} (s : State)

theorem configureBody_of_length (wrong : args.length ≠ 27) : configureBody args s = refuseWith s .badArgument := if_pos wrong

theorem joinBody_of_length (wrong : args.length ≠ 0) : joinBody args s = refuseWith s .badArgument := by
  unfold joinBody
  split
  · exact absurd rfl wrong
  · rfl

theorem leaveBody_of_length (wrong : args.length ≠ 0) : leaveBody args s = refuseWith s .badArgument := by
  unfold leaveBody
  split
  · exact absurd rfl wrong
  · rfl

theorem statusBody_of_length (wrong : args.length ≠ 0) : statusBody args s = refuseWith s .badArgument := by
  unfold statusBody
  split
  · exact absurd rfl wrong
  · rfl

theorem softResetBody_of_length (wrong : args.length ≠ 0) : softResetBody args s = refuseWith s .badArgument := by
  unfold softResetBody
  split
  · exact absurd rfl wrong
  · rfl

theorem setAttentionMaskBody_of_length (wrong : args.length ≠ 2) : setAttentionMaskBody args s = refuseWith s .badArgument := by
  unfold setAttentionMaskBody
  split
  · exact absurd rfl wrong
  · rfl

theorem readNoticeBody_of_length (wrong : args.length ≠ 0) : readNoticeBody args s = refuseWith s .badArgument := by
  unfold readNoticeBody
  split
  · exact absurd rfl wrong
  · rfl

theorem readRosterBody_of_length (wrong : args.length ≠ 1) : readRosterBody args s = refuseWith s .badArgument := by
  unfold readRosterBody
  split
  · exact absurd rfl wrong
  · rfl

theorem subscribeBody_of_length (wrong : args.length ≠ 11) : subscribeBody args s = refuseWith s .badArgument := by
  unfold subscribeBody
  split
  · exact absurd rfl wrong
  · rfl

theorem unsubscribeBody_of_length (wrong : args.length ≠ 1) : unsubscribeBody args s = refuseWith s .badArgument := by
  unfold unsubscribeBody
  split
  · exact absurd rfl wrong
  · rfl

theorem readSubscriptionBody_of_length (wrong : args.length ≠ 1) : readSubscriptionBody args s = refuseWith s .badArgument := by
  unfold readSubscriptionBody
  split
  · exact absurd rfl wrong
  · rfl

theorem popBody_of_length (wrong : args.length ≠ 1) : popBody args s = refuseWith s .badArgument := by
  unfold popBody
  split
  · exact absurd rfl wrong
  · rfl

theorem peekBody_of_length (wrong : args.length ≠ 1) : peekBody args s = refuseWith s .badArgument := by
  unfold peekBody
  split
  · exact absurd rfl wrong
  · rfl

theorem flushBody_of_length (wrong : args.length ≠ 1) : flushBody args s = refuseWith s .badArgument := by
  unfold flushBody
  split
  · exact absurd rfl wrong
  · rfl

theorem queueStatusBody_of_length (wrong : args.length ≠ 2) : queueStatusBody args s = refuseWith s .badArgument := by
  unfold queueStatusBody
  split
  · exact absurd rfl wrong
  · rfl

theorem readSlotBody_of_length (wrong : args.length ≠ 1) : readSlotBody args s = refuseWith s .badArgument := by
  unfold readSlotBody
  split
  · exact absurd rfl wrong
  · rfl

theorem listChangedSlotsBody_of_length (wrong : args.length ≠ 0) : listChangedSlotsBody args s = refuseWith s .badArgument := by
  unfold listChangedSlotsBody
  split
  · exact absurd rfl wrong
  · rfl

theorem withdrawBody_of_length (wrong : args.length ≠ 1) : withdrawBody args s = refuseWith s .badArgument := by
  unfold withdrawBody
  split
  · exact absurd rfl wrong
  · rfl

theorem readPublicationBody_of_length (wrong : args.length ≠ 1) : readPublicationBody args s = refuseWith s .badArgument := by
  unfold readPublicationBody
  split
  · exact absurd rfl wrong
  · rfl

theorem recallBody_of_length (wrong : args.length ≠ 2) : recallBody args s = refuseWith s .badArgument := by
  unfold recallBody
  split
  · exact absurd rfl wrong
  · rfl

theorem epochBody_of_length (wrong : args.length ≠ 0) : epochBody args s = refuseWith s .badArgument := by
  unfold epochBody
  split
  · exact absurd rfl wrong
  · rfl

theorem snapshotOpenBody_of_length (wrong : args.length ≠ 0) : snapshotOpenBody args s = refuseWith s .badArgument := by
  unfold snapshotOpenBody
  split
  · exact absurd rfl wrong
  · rfl

theorem snapshotReadBody_of_length (wrong : args.length ≠ 1) : snapshotReadBody args s = refuseWith s .badArgument := by
  unfold snapshotReadBody
  split
  · exact absurd rfl wrong
  · rfl

theorem snapshotReleaseBody_of_length (wrong : args.length ≠ 0) : snapshotReleaseBody args s = refuseWith s .badArgument := by
  unfold snapshotReleaseBody
  split
  · exact absurd rfl wrong
  · rfl

end

/-- Another number of arguments is refused (R174, R190). -/
theorem bodyOf_of_wrong_length {x : Byte × Nat} (fixed : x ∈ fixedArguments) {args : List Byte} (wrong : args.length ≠ x.2)
    (s : State) : bodyOf x.1 args s = refuseWith s .badArgument := by
  simp only [fixedArguments, List.mem_cons, List.not_mem_nil, or_false] at fixed
  rcases fixed with rfl | rfl | rfl | rfl | rfl | rfl | rfl | rfl | rfl | rfl | rfl | rfl | rfl | rfl | rfl | rfl | rfl | rfl |
    rfl | rfl | rfl | rfl | rfl | rfl
  exacts [configureBody_of_length s wrong, joinBody_of_length s wrong, leaveBody_of_length s wrong,
    statusBody_of_length s wrong, softResetBody_of_length s wrong, setAttentionMaskBody_of_length s wrong,
    readNoticeBody_of_length s wrong, readRosterBody_of_length s wrong, subscribeBody_of_length s wrong,
    unsubscribeBody_of_length s wrong, readSubscriptionBody_of_length s wrong, popBody_of_length s wrong,
    peekBody_of_length s wrong, flushBody_of_length s wrong, queueStatusBody_of_length s wrong,
    readSlotBody_of_length s wrong, listChangedSlotsBody_of_length s wrong, withdrawBody_of_length s wrong,
    readPublicationBody_of_length s wrong, recallBody_of_length s wrong, epochBody_of_length s wrong,
    snapshotOpenBody_of_length s wrong, snapshotReadBody_of_length s wrong, snapshotReleaseBody_of_length s wrong]

theorem fixedArguments_known {x : Byte × Nat} (fixed : x ∈ fixedArguments) : x.1.toNat ∈ knownCodes := by
  revert x
  decide

/-- A taken command that is refused has changed nothing but the response. -/
theorem answered_of_refused {s t : State} {code : Byte} {args : List Byte} {body : State → State × Response} {r : Response}
    (plainly : RefusesPlainly s (body s)) (taken : takeCommand s code args body = t)
    (waiting : t.port.state = .responseWaiting r) (notOk : r.code ≠ .ok) (notPending : r.code ≠ .pending) :
    t = answered s r ∧ (r.data = [] ∨ t = s) := by
  unfold takeCommand at taken
  split at taken
  · rw [← taken] at waiting
    cases waiting
    obtain ok | pending | refused := plainly
    · exact absurd ok notOk
    · exact absurd pending notPending
    · rw [← taken, refused]
      exact ⟨rfl, .inl rfl⟩
  · subst taken
    refine ⟨?_, .inr rfl⟩
    unfold answered
    rw [← waiting]

/-- Settles O33: every body that refuses returns the state that it was given. -/
theorem refusedCommandChangesNothing : Obligations.RefusedCommandChangesNothing := by
  refine ⟨fun c s t r takes next waiting notOk notPending => ?_, fun x fixed s args wrong executes => ?_⟩
  · have known : ∀ code args, code.toNat ∈ knownCodes → exec (commandOf code args) s = .next t →
        t = answered s r ∧ (r.data = [] ∨ t = s) := fun code args known next => by
      rw [exec_commandOf_of_known known] at next
      exact answered_of_refused (bodyOf_refusesPlainly code args s) (Host.Outcome.next.inj next) waiting notOk notPending
    have unknown : ∀ code args, exec (.unknownCommand code args) s = .next t →
        t = answered s r ∧ (r.data = [] ∨ t = s) := fun code args next => by
      cases unknown : isUnknownCode code with
      | true =>
        rw [exec_unknownCommand_of_unknown unknown] at next
        exact answered_of_refused (refusesPlainly_refuse s _) (Host.Outcome.next.inj next) waiting notOk notPending
      | false =>
        rw [exec_unknownCommand_of_known unknown] at next
        cases next
        refine ⟨?_, .inr rfl⟩
        unfold answered
        rw [← waiting]
    obtain ⟨code, args, rfl⟩ | ⟨code, args, rfl⟩ := takes
    · by_cases named : code.toNat ∈ knownCodes
      · exact known code args named next
      · rw [commandOf_of_unknown named] at next
        exact unknown code args next
    · exact unknown code args next
  · rw [exec_commandOf_of_known (fixedArguments_known fixed), takeCommand_executes _ executes,
      bodyOf_of_wrong_length fixed wrong]
    rfl

end Sys2Proof.Machine
end

section
/-! Idling (log 4, log 5): what is due, and one microsecond. -/

namespace Sys2Proof.Machine

/-! ## What is due -/

/-- Whether a command is taken from the port, and is not an event of the line, of a timer or of a reset (12.5). -/
def takenFromPort (c : Instr) : Bool :=
  match c with
  | .sendEnd | .jamEnd | .gapEnd | .bookedSlotStart | .slotCycleStart | .blockedLineEvent | .listenWindowExpiry
  | .presenceTimerExpiry | .silenceDeadlineExpiry _ | .freshnessDeadlineExpiry _ | .periodicTimerExpiry _
  | .holdOffExpiry _ | .recallDeadlineExpiry _ => false
  | _ => true

theorem takenFromPort_commandOf (code : Byte) (args : List Byte) : takenFromPort (commandOf code args) = true := by
  unfold commandOf
  split <;> rfl

/-- An event is not the command in the port. -/
theorem not_mem_dueCommand {s : State} {c : Instr} (event : takenFromPort c = false) : c ∉ dueCommand s := by
  rw [mem_dueCommand]
  rintro ⟨code, args, -, rfl⟩
  rw [takenFromPort_commandOf] at event
  cases event

theorem awaitsGap_iff (r : ReceiveCondition) : r.awaitsGap = true ↔ r = .seeking ∨ r = .betweenFrames := by
  cases r <;> simp [ReceiveCondition.awaitsGap]

theorem Timer.isOver_iff (t : Timer) : t.isOver = true ↔ t = some 0 := by simp [Timer.isOver]

theorem gapCanEnd_iff (s : State) : gapCanEnd s = true ↔
    (s.line.receive = .seeking ∨ s.line.receive = .betweenFrames) ∧ s.line.level = .idle ∧ s.line.send = .off ∧
      s.access.inFlight = none ∧ s.access.slotTime = none := by
  unfold gapCanEnd
  simp only [Bool.and_eq_true, awaitsGap_iff, isIdle_iff, Option.isNone_iff_eq_none, and_assoc]

theorem slotCanBegin_iff (s : State) : slotCanBegin s = true ↔
    s.access.slotTime.isSome = true ∧ s.line.receive = .betweenFrames ∧ s.line.send = .off ∧ s.access.inFlight = none := by
  unfold slotCanBegin
  simp only [Bool.and_eq_true, beq_iff_eq, Option.isNone_iff_eq_none, and_assoc]

theorem RecallEntry.waits_and_isOver (e : RecallEntry) : (e.waits && e.deadline.isOver) = true ↔
    (e.state = .sent ∨ e.state = .suppressed) ∧ e.deadline = some 0 := by
  unfold RecallEntry.waits Timer.isOver
  simp only [Bool.and_eq_true, Bool.or_eq_true, beq_iff_eq]
  refine ⟨fun ⟨⟨state, _⟩, ended⟩ => ⟨state, ended⟩, fun ⟨state, ended⟩ => ⟨⟨state, ?_⟩, ended⟩⟩
  rw [ended]
  rfl

/-- A table's timers that are due. -/
theorem mem_dueTable {n : Nat} {p : Fin n → Bool} {mk : Fin n → Instr} {c : Instr} :
    c ∈ ((List.finRange n).filter p).map mk ↔ ∃ i, p i = true ∧ mk i = c := by
  simp

theorem mem_due {s : State} (running : s.held = false) (c : Instr) :
    c ∈ due s ↔ c ∈ dueOnLine s ∨ c ∈ dueTimers s ∨ c ∈ dueRequests s ∨ c ∈ dueCommand s := by
  unfold due
  rw [running, if_neg Bool.false_ne_true]
  simp only [List.mem_append, or_assoc]

theorem takenFromPort_of_event {s : State} {c : Instr} (event : c ∈ dueOnLine s ∨ c ∈ dueTimers s ∨ c ∈ dueRequests s) :
    takenFromPort c = false := by
  unfold dueOnLine dueTimers dueRequests at event
  simp only [List.mem_append, mem_dueIf, mem_dueTable] at event
  obtain (((((⟨-, rfl⟩ | ⟨-, rfl⟩) | ⟨-, rfl⟩) | ⟨-, rfl⟩) | ⟨-, rfl⟩) | ⟨-, rfl⟩) |
    (((⟨-, rfl⟩ | ⟨-, rfl⟩) | ⟨_, -, rfl⟩) | ⟨_, -, rfl⟩) | ((⟨_, -, rfl⟩ | ⟨_, -, rfl⟩) | ⟨_, -, rfl⟩) := event
  all_goals rfl

/-- The events of the line, of the timers and of the port, each on its condition. -/
theorem mem_due_iff {s : State} (running : s.held = false) (c : Instr) : c ∈ due s ↔ IsDue s c := by
  rw [mem_due running]
  cases taken : takenFromPort c with
  | true =>
    have only : c ∈ dueOnLine s ∨ c ∈ dueTimers s ∨ c ∈ dueRequests s ∨ c ∈ dueCommand s ↔ c ∈ dueCommand s := by
      refine ⟨fun h => ?_, fun h => .inr (.inr (.inr h))⟩
      by_contra other
      have event : c ∈ dueOnLine s ∨ c ∈ dueTimers s ∨ c ∈ dueRequests s := by tauto
      rw [takenFromPort_of_event event] at taken
      cases taken
    rw [only, mem_dueCommand]
    unfold IsDue
    cases c <;> first | exact Iff.rfl | cases taken
  | false =>
    simp only [not_mem_dueCommand taken, or_false]
    unfold dueOnLine dueTimers dueRequests
    simp only [List.mem_append, mem_dueIf, mem_dueTable]
    cases c <;> try exact absurd taken Bool.false_ne_true.symm
    case gapEnd => simp [IsDue, gapCanEnd_iff, Option.any_eq_true, and_assoc]
    case bookedSlotStart =>
      simp [IsDue, slotCanBegin_iff, Option.any_eq_true, and_assoc, slotStart, Option.isSome_iff_exists]
      constructor
      · rintro ⟨⟨e, time⟩, between, off, free, b, booked, begun⟩
        rw [time] at begun
        exact ⟨between, off, free, b, booked, e, time, of_decide_eq_true begun⟩
      · rintro ⟨between, off, free, b, booked, e, time, begun⟩
        refine ⟨⟨e, time⟩, between, off, free, b, booked, ?_⟩
        rw [time]
        exact decide_eq_true begun
    case jamEnd => simp [IsDue, Option.isSome_iff_ne_none]
    case recallDeadlineExpiry p =>
      simp only [RecallEntry.waits_and_isOver]
      simp [IsDue]
    all_goals simp [IsDue, Timer.isOver_iff, Option.any_eq_true]

/-! ## One microsecond -/

theorem step_of_nothing_due {s : State} (empty : s.pending = []) (running : s.held = false) (none : due s = []) :
    step s = .next (tick s) := by
  rw [step_of_idle empty]
  unfold idle
  rw [none]
  dsimp only
  rw [running, if_neg Bool.false_ne_true]

theorem step_of_due {s : State} (empty : s.pending = []) (some : due s ≠ []) :
    ∃ c ∈ due s, step s = .next { s with pending := [c], free := s.free + 1 } := by
  rw [step_of_idle empty]
  unfold idle
  cases list : due s with
  | nil => exact absurd list some
  | cons c cs =>
    refine ⟨_, ?_, rfl⟩
    rw [List.getD_eq_getElem _ _ (by simpa using Nat.mod_lt _ (Nat.succ_pos _))]
    exact List.getElem_mem _

theorem tick_eq (s : State) : tick s = { s with
    line := (tick s).line, access := { s.access with slotTime := s.access.slotTime.map (· + 2) },
    session := { s.session with
      listenWindow := s.session.listenWindow.map (· - 1), presenceTimer := s.session.presenceTimer.map (· - 1) },
    roster := (tick s).roster, store := { s.store with slots := (tick s).store.slots },
    pubs := { s.pubs with table := (tick s).pubs.table }, cont := { s.cont with recalls := (tick s).cont.recalls } } := by
  unfold tick
  rfl

theorem tick_gap (s : State) :
    (s.line.level = .idle → s.line.send = .off → (tick s).line.gap = s.line.gap.map (· + 2)) ∧
      (s.line.level = .active ∨ s.line.send ≠ .off → (tick s).line.gap = s.line.gap) := by
  rw [tick_line]
  refine ⟨fun idle off => ?_, fun busy => LineInterface.tick_gap_of_not_isIdle ?_⟩
  · unfold LineInterface.tick
    exact if_pos ((isIdle_iff _).mpr ⟨idle, off⟩)
  · rw [← Bool.not_eq_true, isIdle_iff]
    rintro ⟨idle, off⟩
    obtain active | on := busy
    · rw [idle] at active
      cases active
    · exact on off

theorem tick_send (s : State) :
    (s.line.send = .off → (tick s).line.send = .off) ∧
      (∀ n, s.line.send = .sending n → (tick s).line.send = .sending (n - 2)) ∧
      ∀ n, s.line.send = .jamming n → (tick s).line.send = .jamming (n - 2) := by
  rw [tick_line]
  unfold LineInterface.tick SendCondition.tick
  refine ⟨fun off => ?_, fun n sending => ?_, fun n jamming => ?_⟩
  · dsimp only
    rw [off]
  · dsimp only
    rw [sending]
  · dsimp only
    rw [jamming]

/-- Settles O2: with an empty queue a step is what `idle` does, and what is due has been listed. -/
theorem idleStepIsOneMicrosecond : Obligations.IdleStepIsOneMicrosecond := by
  refine ⟨fun s empty running => ⟨step_of_nothing_due empty running, step_of_due empty, mem_due_iff running⟩, fun s => ?_,
    fun args => ⟨rfl, fun code unknown => commandOf_of_unknown ((isUnknownCode_iff code).mp unknown).2 args⟩⟩
  obtain ⟨off, sending, jamming⟩ := tick_send s
  obtain ⟨counted, uncounted⟩ := tick_gap s
  exact ⟨tick_eq s, rfl, off, sending, jamming, counted, uncounted, tick_roster s, tick_slot s, tick_pub s, tick_recall s⟩

end Sys2Proof.Machine
end

section
/-! RECALL, EPOCH and the SNAPSHOT commands (8.2, 9.1, 9.4), and what a settled booking leaves of the rest. -/

namespace Sys2Proof.Machine

/-! ## A settled booking under a response -/

/-- Settling changes the booking alone. -/
theorem settleBooking_exists (u : State) : ∃ b, settleBooking u = u.setAccess { u.access with booking := b } :=
  ⟨_, settleBooking_eq u⟩

theorem SettledBooking.answered {s t : State} (h : SettledBooking s t) (r : Response) : SettledBooking s (answered t r) := h

/-! ## RECALL (R146) -/

/-- RECALL in the port is taken by the Continuity Unit (R146, R174). -/
theorem exec_recallCmd_of_executes {s : State} {args : List Byte} (h : Executes s 0x60 args) :
    exec (.recallCmd args) s = .next (answered (recallBody args s).1 (recallBody args s).2) :=
  congrArg Host.Outcome.next (takeCommand_executes (recallBody args) h)

theorem recallBody_of_not_member {s : State} (hi lo : Byte) (outside : s.session.state ≠ .member) :
    recallBody [hi, lo] s = refuseWith s .wrongState := if_pos outside

theorem recallBody_of_own {s : State} {hi lo : Byte} (member : s.session.state = .member) (own : publishes s (hi ++ lo)) :
    recallBody [hi, lo] s = refuseWith s .ownTopic := by
  unfold recallBody
  dsimp only
  rw [if_neg (not_not.mpr member)]
  exact if_pos ((ownsTopic_iff s _).mpr own)

/-- For a topic that is not published RECALL looks at the recall list. -/
theorem recallBody_of_foreign {s : State} {hi lo : Byte} (member : s.session.state = .member)
    (foreign : ¬ publishes s (hi ++ lo)) : recallBody [hi, lo] s =
      match recallAt s (hi ++ lo) with
      | some p => (s.updRecall p fun e => { e with origin := .host }, plain .ok)
      | none =>
        match freeRecall s with
        | some p => (settleBooking (makeRecall s p (hi ++ lo) .host), plain .ok)
        | none => refuseWith s .listFull := by
  unfold recallBody
  dsimp only
  rw [if_neg (not_not.mpr member)]
  exact if_neg fun owned => foreign ((ownsTopic_iff s _).mp owned)

/-- The entry of a recalled topic is the only one of that topic. -/
theorem recallAt_eq_some {s : State} {topic : Topic} {p : RecallPos} (fits : s.cont.recallsFit)
    (busy : (s.cont.recalls[p]).state ≠ .free) (same : (s.cont.recalls[p]).topic = topic) : recallAt s topic = some p := by
  refine tabFind_eq_some ?_ fun q low => ?_
  · simp only [Bool.and_eq_true, bne_iff_ne, beq_iff_eq]
    exact ⟨busy, same⟩
  · rw [← Bool.not_eq_true]
    simp only [Bool.and_eq_true, bne_iff_ne, beq_iff_eq]
    rintro ⟨busy', same'⟩
    exact low.ne (fits.1 q p busy' busy (same'.trans same.symm))

theorem recallAt_eq_none {s : State} {topic : Topic}
    (other : ∀ q : RecallPos, (s.cont.recalls[q]).state ≠ .free → (s.cont.recalls[q]).topic ≠ topic) :
    recallAt s topic = none := by
  refine tabFind_eq_none fun q => ?_
  rw [← Bool.not_eq_true]
  simp only [Bool.and_eq_true, bne_iff_ne, beq_iff_eq]
  exact fun ⟨busy, same⟩ => other q busy same

theorem freeRecall_eq_none {s : State} (full : ∀ q : RecallPos, (s.cont.recalls[q]).state ≠ .free) : freeRecall s = none :=
  tabFind_eq_none fun q => by simpa using full q

theorem freeRecall_eq_some {s : State} {p : RecallPos} (free : (s.cont.recalls[p]).state = .free)
    (lowest : ∀ q : RecallPos, q < p → (s.cont.recalls[q]).state ≠ .free) : freeRecall s = some p :=
  tabFind_eq_some (by simpa using free) fun q low => by simpa using lowest q low

/-! ## EPOCH (R157) -/

/-- EPOCH in the port is taken by the Epoch Unit (R157, R174). -/
theorem exec_epoch_of_executes {s : State} {args : List Byte} (h : Executes s 0x70 args) :
    exec (.epoch args) s = .next (answered (epochBody args s).1 (epochBody args s).2) :=
  congrArg Host.Outcome.next (takeCommand_executes (epochBody args) h)

theorem epochBody_of_not_member {s : State} (outside : s.session.state ≠ .member) :
    epochBody [] s = refuseWith s .wrongState := if_pos outside

theorem epochBody_of_idle {s : State} (member : s.session.state = .member) (idle : s.epoch.request = .none) :
    epochBody [] s =
      (settleBooking (placeItem (s.setEpoch { s.epoch with request := .waiting }) .epoch 0), plain .pending) :=
  (if_neg (not_not.mpr member)).trans (if_pos idle)

theorem epochBody_of_requested {s : State} (member : s.session.state = .member) (requested : s.epoch.request ≠ .none) :
    epochBody [] s = (s, plain .pending) :=
  (if_neg (not_not.mpr member)).trans (if_neg requested)

/-- A topic that is recalled already only becomes of origin HOST (R146). -/
theorem recall_of_listed {s : State} {hi lo : Byte} {p : RecallPos} (executes : Executes s 0x60 [hi, lo])
    (member : s.session.state = .member) (foreign : ¬ publishes s (hi ++ lo)) (listed : recallAt s (hi ++ lo) = some p) :
    ∃ t, exec (.recallCmd [hi, lo]) s = .next t ∧
      t = answered { s with cont := { s.cont with recalls := t.cont.recalls } } ⟨.ok, []⟩ ∧
      t.cont.recalls[p] = { s.cont.recalls[p] with origin := .host } ∧
      ∀ q : RecallPos, q ≠ p → t.cont.recalls[q] = s.cont.recalls[q] := by
  refine ⟨answered (s.updRecall p fun e => { e with origin := .host }) ⟨.ok, []⟩, ?_, rfl, upd_getElem_self _ _ _,
    fun q other => upd_getElem_of_ne _ _ other.symm⟩
  rw [exec_recallCmd_of_executes executes, recallBody_of_foreign member foreign, listed]
  rfl

/-- Another topic takes the lowest FREE position, with its item (R145, R146). -/
theorem recall_of_free {s : State} {hi lo : Byte} {p : RecallPos} (executes : Executes s 0x60 [hi, lo])
    (member : s.session.state = .member) (foreign : ¬ publishes s (hi ++ lo)) (unlisted : recallAt s (hi ++ lo) = none)
    (free : freeRecall s = some p) :
    ∃ t, exec (.recallCmd [hi, lo]) s = .next t ∧
      t = answered { s with
          access := { s.access with booking := t.access.booking },
          cont := { s.cont with recalls := t.cont.recalls },
          pubs := { s.pubs with
            items := insertItem
              { kind := .recallItem (hi ++ lo), cls := 1, attempts := 0, placed := s.pubs.placements } s.pubs.items,
            placements := s.pubs.placements + 1 } } ⟨.ok, []⟩ ∧
      SettledBooking s t ∧
      t.cont.recalls[p] = { state := .waiting, topic := hi ++ lo, origin := .host, expiries := 0, deadline := none } ∧
      ∀ q : RecallPos, q ≠ p → t.cont.recalls[q] = s.cont.recalls[q] := by
  have next : exec (.recallCmd [hi, lo]) s =
      .next (answered (settleBooking (makeRecall s p (hi ++ lo) .host)) (plain .ok)) := by
    rw [exec_recallCmd_of_executes executes, recallBody_of_foreign member foreign, unlisted, free]
  have settled : SettledBooking s (settleBooking (makeRecall s p (hi ++ lo) .host)) := settleBooking_settled rfl rfl rfl
  obtain ⟨b, booked⟩ := settleBooking_exists (makeRecall s p (hi ++ lo) .host)
  rw [booked] at next settled
  exact ⟨_, next, rfl, settled.answered _, upd_getElem_self _ _ _, fun q other => upd_getElem_of_ne _ _ other.symm⟩

/-- Settles O45. -/
theorem recallAndEpochPlaceTheirItems : Obligations.RecallAndEpochPlaceTheirItems := by
  refine fun s => ⟨fun hi lo executes => ⟨fun outside => ?notMember, fun member own => ?own, fun member foreign =>
    ⟨fun p fits busy same => recall_of_listed executes member foreign (recallAt_eq_some fits busy same), fun full => ?full,
      fun p other free lowest => recall_of_free executes member foreign (recallAt_eq_none other)
        (freeRecall_eq_some free lowest)⟩⟩,
    fun executes => ⟨fun outside => ?epochNotMember, fun member idle => ?epochIdle, fun member requested => ?requested⟩⟩
  case notMember =>
    rw [exec_recallCmd_of_executes executes, recallBody_of_not_member hi lo outside]
    rfl
  case own =>
    rw [exec_recallCmd_of_executes executes, recallBody_of_own member own]
    rfl
  case full =>
    rw [exec_recallCmd_of_executes executes, recallBody_of_foreign member foreign,
      recallAt_eq_none fun q _ => (full q).2, freeRecall_eq_none fun q => (full q).1]
    rfl
  case epochNotMember =>
    rw [exec_epoch_of_executes executes, epochBody_of_not_member outside]
    rfl
  case epochIdle =>
    have next := exec_epoch_of_executes executes
    rw [epochBody_of_idle member idle] at next
    have settled : SettledBooking s
        (settleBooking (placeItem (s.setEpoch { s.epoch with request := .waiting }) .epoch 0)) :=
      settleBooking_settled rfl rfl rfl
    obtain ⟨b, booked⟩ := settleBooking_exists (placeItem (s.setEpoch { s.epoch with request := .waiting }) .epoch 0)
    rw [booked] at next settled
    exact ⟨_, next, rfl, settled.answered _⟩
  case requested =>
    rw [exec_epoch_of_executes executes, epochBody_of_requested member requested]
    rfl

/-! ## The snapshot commands (R164, R165) -/

/-- SNAPSHOT OPEN in the port is taken by the Epoch Unit (R164, R174). -/
theorem exec_snapshotOpen_of_executes {s : State} {args : List Byte} (h : Executes s 0x71 args) :
    exec (.snapshotOpen args) s = .next (answered (snapshotOpenBody args s).1 (snapshotOpenBody args s).2) :=
  congrArg Host.Outcome.next (takeCommand_executes (snapshotOpenBody args) h)

/-- SNAPSHOT READ in the port is taken by the Epoch Unit (R165, R174). -/
theorem exec_snapshotRead_of_executes {s : State} {args : List Byte} (h : Executes s 0x72 args) :
    exec (.snapshotRead args) s = .next (answered (snapshotReadBody args s).1 (snapshotReadBody args s).2) :=
  congrArg Host.Outcome.next (takeCommand_executes (snapshotReadBody args) h)

/-- SNAPSHOT RELEASE in the port is taken by the Epoch Unit (R165, R174). -/
theorem exec_snapshotRelease_of_executes {s : State} {args : List Byte} (h : Executes s 0x73 args) :
    exec (.snapshotRelease args) s = .next (answered (snapshotReleaseBody args s).1 (snapshotReleaseBody args s).2) :=
  congrArg Host.Outcome.next (takeCommand_executes (snapshotReleaseBody args) h)

theorem heldBank_eq_none {u : EpochUnit} (unheld : ∀ x : Fin 2, (u.banks[x]).state ≠ .held) : heldBank u = none :=
  tabFind_eq_none fun x => beq_false_of_ne (unheld x)

theorem heldBank_isSome {u : EpochUnit} (held : ∃ x : Fin 2, (u.banks[x]).state = .held) : (heldBank u).isSome = true := by
  obtain ⟨x, isHeld⟩ := held
  cases found : heldBank u with
  | none =>
    exact absurd (tabFind_none found x) (by rw [isHeld]; exact nofun)
  | some b => rfl

theorem heldBank_eq_some {u : EpochUnit} {b : Fin 2} (held : (u.banks[b]).state = .held)
    (only : ∀ x : Fin 2, x ≠ b → (u.banks[x]).state ≠ .held) : heldBank u = some b :=
  tabFind_eq_some (beq_iff_eq.mpr held) fun x low => beq_false_of_ne (only x low.ne)

theorem newestFilled_of_latest {u : EpochUnit} {b : Fin 2} (latest : u.latest = some b)
    (filled : (u.banks[b]).state = .filled) : newestFilled u = some b := by
  unfold newestFilled
  rw [latest]
  exact if_pos filled

theorem newestFilled_eq_none {u : EpochUnit} (empty : ∀ x : Fin 2, (u.banks[x]).state = .empty) : newestFilled u = none := by
  have none : tabFind (fun b => b.state == .filled) u.banks = none := tabFind_eq_none fun x => by
    rw [empty x]
    rfl
  unfold newestFilled
  split
  · rename_i b _
    rw [if_neg (by rw [empty b]; exact nofun)]
    exact none
  · exact none

theorem snapshotOpenBody_of_held {s : State} (held : ∃ x : Fin 2, (s.epoch.banks[x]).state = .held) :
    snapshotOpenBody [] s = refuseWith s .alreadyOpen := if_pos (heldBank_isSome held)

theorem snapshotOpenBody_of_unheld {s : State} (unheld : ∀ x : Fin 2, (s.epoch.banks[x]).state ≠ .held) :
    snapshotOpenBody [] s =
      match newestFilled s.epoch with
      | none => refuseWith s .empty
      | some b => (s.setEpoch { s.epoch with banks := upd s.epoch.banks b fun k => { k with state := .held } },
         okData ((s.epoch.banks[b]).number :: byteOf (s.epoch.banks[b]).source.val ::
           bytes32 (s.epoch.banks[b]).stamp.toNat)) := by
  unfold snapshotOpenBody
  dsimp only
  rw [heldBank_eq_none unheld]
  exact if_neg Bool.false_ne_true

theorem snapshotReadBody_of_above {s : State} {n : Byte} (above : 63 < n.toNat) :
    snapshotReadBody [n] s = refuseWith s .badArgument := by
  simp [snapshotReadBody, indexOf_eq_none (Nat.succ_le_of_lt above)]

theorem snapshotReadBody_of_number {s : State} {n : Byte} {k : SlotNo} (number : n.toNat = k.val) :
    snapshotReadBody [n] s =
      match heldBank s.epoch with
      | none => refuseWith s .notOpen
      | some h => (s, okData ((s.epoch.banks[h]).copies[k]).bytes) := by
  simp only [snapshotReadBody, indexOf_eq_some number] <;> rfl

theorem snapshotReleaseBody_of_unheld {s : State} (unheld : heldBank s.epoch = none) :
    snapshotReleaseBody [] s = refuseWith s .notOpen := by
  unfold snapshotReleaseBody
  rw [unheld]

theorem snapshotReleaseBody_of_held {s : State} {b : Fin 2} (held : heldBank s.epoch = some b) :
    snapshotReleaseBody [] s =
      (s.setEpoch { s.epoch with
        banks := upd s.epoch.banks b fun _ => Bank.initial, latest := markAfterRelease s.epoch b }, plain .ok) := by
  unfold snapshotReleaseBody
  rw [held]

/-- A slot copy is laid out as 12.8 says. -/
theorem slotCopy_bytes_layout (k : SlotCopy) : k.bytes =
    (match k.state with | .empty => 0 | .fresh => 1 | .stale => 2)
    :: (match k.reason with | none => 0 | some .freshness => 1 | some .peerSilent => 2 | some .left => 3)
    :: flagByte [k.contents.first, k.contents.again, k.contents.selfMade, k.contents.gap]
    :: (bytes16 k.contents.topic.toNat
      ++ byteOf k.contents.source.val :: k.contents.seq :: byteOf k.contents.missing
      :: (bytes32 k.contents.stamp.toNat ++ byteOf k.contents.payload.length :: k.contents.payload)) := by
  have state : k.state.code = (match k.state with | .empty => 0 | .fresh => 1 | .stale => 2) := by
    cases k.state <;> rfl
  have reason : staleCode k.reason =
      (match k.reason with | none => 0 | some .freshness => 1 | some .peerSilent => 2 | some .left => 3) := by
    obtain _ | reason := k.reason
    · rfl
    · cases reason <;> rfl
  unfold SlotCopy.bytes
  rw [state, reason]
  simp only [List.append_assoc, List.cons_append, List.nil_append]

/-- The mark after a release stays where it was, or moves to the other bank when that is FILLED (R155). -/
theorem markAfterRelease_spec (u : EpochUnit) (b : Fin 2) :
    (u.latest ≠ some b → markAfterRelease u b = u.latest) ∧
    (u.latest = some b → ∀ x : Fin 2, x ≠ b →
      ((u.banks[x]).state = .filled → markAfterRelease u b = some x) ∧
      ((u.banks[x]).state ≠ .filled → markAfterRelease u b = none)) := by
  refine ⟨fun elsewhere => if_neg elsewhere, fun here x other => ?_⟩
  obtain rfl : x = otherBank b := eq_otherBank b x other
  unfold markAfterRelease
  rw [if_pos here]
  exact ⟨fun filled => if_pos filled, fun unfilled => if_neg unfilled⟩

/-- Settles O41. -/
theorem snapshotCommandsUseTheBanks : Obligations.SnapshotCommandsUseTheBanks := by
  refine ⟨slotCopy_bytes_layout, fun s => ⟨fun executes => ⟨fun held => ?alreadyOpen, fun empty => ?empty⟩,
    fun n executes => ⟨fun above => ?above, fun low unheld => ?readNotOpen⟩, fun executes unheld => ?releaseNotOpen⟩,
    fun s b => ⟨fun executes unheld latest filled => ?opened, fun n k number executes held only => ?read,
      fun executes held only => ?released⟩⟩
  case alreadyOpen =>
    rw [exec_snapshotOpen_of_executes executes, snapshotOpenBody_of_held held]
    rfl
  case empty =>
    rw [exec_snapshotOpen_of_executes executes,
      snapshotOpenBody_of_unheld fun x => by rw [empty x]; exact nofun, newestFilled_eq_none empty]
    rfl
  case above =>
    rw [exec_snapshotRead_of_executes executes, snapshotReadBody_of_above above]
    rfl
  case readNotOpen =>
    rw [exec_snapshotRead_of_executes executes, snapshotReadBody_of_number (k := ⟨n.toNat, by omega⟩) rfl,
      heldBank_eq_none unheld]
    rfl
  case releaseNotOpen =>
    rw [exec_snapshotRelease_of_executes executes, snapshotReleaseBody_of_unheld (heldBank_eq_none unheld)]
    rfl
  case opened =>
    refine ⟨answered (s.setEpoch { s.epoch with banks := upd s.epoch.banks b fun k => { k with state := .held } })
      ⟨.ok, (s.epoch.banks[b]).number :: byteOf (s.epoch.banks[b]).source.val :: bytes32 (s.epoch.banks[b]).stamp.toNat⟩,
      ?_, rfl, upd_getElem_self _ _ _, fun x other => upd_getElem_of_ne _ _ other.symm⟩
    rw [exec_snapshotOpen_of_executes executes, snapshotOpenBody_of_unheld unheld, newestFilled_of_latest latest filled]
    rfl
  case read =>
    rw [exec_snapshotRead_of_executes executes, snapshotReadBody_of_number number, heldBank_eq_some held only]
    rfl
  case released =>
    obtain ⟨elsewhere, here⟩ := markAfterRelease_spec s.epoch b
    refine ⟨answered (s.setEpoch { s.epoch with
        banks := upd s.epoch.banks b fun _ => Bank.initial, latest := markAfterRelease s.epoch b }) ⟨.ok, []⟩,
      ?_, rfl, upd_getElem_self _ _ _, fun x other => upd_getElem_of_ne _ _ other.symm, elsewhere, here⟩
    rw [exec_snapshotRelease_of_executes executes, snapshotReleaseBody_of_held (heldBank_eq_some held only)]
    rfl

end Sys2Proof.Machine
end

section
/-! SUBSCRIBE and UNSUBSCRIBE (4.2). -/

namespace Sys2Proof.Machine

/-- The booking of `settleBooking`, with what it is for a state that differs from `s` elsewhere only. -/
theorem settleBooking_with {s u : State} (booking : u.access.booking = s.access.booking)
    (flight : u.access.inFlight = s.access.inFlight) (slotTime : u.access.slotTime = s.access.slotTime) :
    ∃ b, settleBooking u = u.setAccess { u.access with booking := b } ∧
      SettledBooking s (u.setAccess { u.access with booking := b }) := by
  have settled := settleBooking_settled booking flight slotTime
  obtain ⟨b, eq⟩ := settleBooking_exists u
  rw [eq] at settled
  exact ⟨b, eq, settled⟩

/-! ## SUBSCRIBE -/

/-- SUBSCRIBE in the port is taken by the Acceptance Unit (R63, R174). -/
theorem exec_subscribe_of_executes {s : State} {args : List Byte} (h : Executes s 0x20 args) :
    exec (.subscribe args) s = .next (answered (subscribeBody args s).1 (subscribeBody args s).2) :=
  congrArg Host.Outcome.next (takeCommand_executes (subscribeBody args) h)

theorem sourceConstraintOf_of_valid {src : Byte} (valid : src = 0xFF ∨ src.toNat < 32) :
    sourceConstraintOf src = some (if src = 0xFF then none else some (Fin.ofNat 32 src.toNat)) := by
  unfold sourceConstraintOf
  by_cases any : src = 0xFF
  · rw [if_pos any, if_pos any]
  · have low := valid.resolve_left any
    rw [if_neg any, if_neg any, indexOf_eq_some (i := Fin.ofNat 32 src.toNat) (Nat.mod_eq_of_lt low).symm]
    rfl

theorem sourceConstraintOf_of_invalid {src : Byte} (some : src ≠ 0xFF) (above : 31 < src.toNat) :
    sourceConstraintOf src = none := by
  unfold sourceConstraintOf
  rw [if_neg some, indexOf_eq_none (Nat.succ_le_of_lt above)]
  rfl

theorem targetOf_of_queue {num : Byte} {q : QueueNo} (number : num.toNat = q.val) : targetOf 0 num = some (.queue q) :=
  congrArg (Option.map Target.queue) (indexOf_eq_some number)

theorem targetOf_of_slot {num : Byte} {k : SlotNo} (number : num.toNat = k.val) : targetOf 1 num = some (.slot k) :=
  congrArg (Option.map Target.slot) (indexOf_eq_some number)

theorem targetOf_of_kind_above {kind : Byte} (num : Byte) (above : 1 < kind.toNat) : targetOf kind num = none := by
  unfold targetOf
  split
  · omega
  · omega
  · rfl

theorem targetOf_of_queue_above {num : Byte} (above : 7 < num.toNat) : targetOf 0 num = none :=
  congrArg (Option.map Target.queue) (indexOf_eq_none (Nat.succ_le_of_lt above))

theorem targetOf_of_slot_above {num : Byte} (above : 63 < num.toNat) : targetOf 1 num = none :=
  congrArg (Option.map Target.slot) (indexOf_eq_none (Nat.succ_le_of_lt above))

/-- A queue target comes from kind 0, a slot target from kind 1. -/
theorem kind_of_targetOf {kind num : Byte} {target : Target} (named : targetOf kind num = some target) :
    (kind = 0 ∧ ∃ q : QueueNo, num.toNat = q.val ∧ target = .queue q) ∨
      (kind = 1 ∧ ∃ k : SlotNo, num.toNat = k.val ∧ target = .slot k) := by
  unfold targetOf at named
  split at named
  · rename_i zero
    obtain ⟨q, index, rfl⟩ := Option.map_eq_some_iff.mp named
    unfold indexOf at index
    split at index
    · cases index
      exact .inl ⟨BitVec.eq_of_toNat_eq zero, _, rfl, rfl⟩
    · cases index
  · rename_i one
    obtain ⟨k, index, rfl⟩ := Option.map_eq_some_iff.mp named
    unfold indexOf at index
    split at index
    · cases index
      exact .inr ⟨BitVec.eq_of_toNat_eq one, _, rfl, rfl⟩
    · cases index
  · cases named

/-- The entry that SUBSCRIBE makes (R63). -/
def subscribedEntry (value mask : Topic) (source : Option Station) (target : Target) (options : Byte) (limit : Nat) :
    SubEntry :=
  { state := .active, value := value, mask := mask, source := source, target := target,
    keepOn := options.getLsbD 0, spill := options.getLsbD 1, acceptSelf := options.getLsbD 2,
    track := options.getLsbD 3, recallOption := options.getLsbD 4, limit := limit, engaged := false }

/-- The state after an accepted SUBSCRIBE, before the booking is settled (R64, R65). -/
def subscribed (s : State) (i : SubIndex) (e : SubEntry) : State :=
  let s2 := handLimit (s.updSub i fun _ => e) e.target e.limit
  if e.recallOption then requestRecall s2 e.value .fill else s2

section Body

variable {s : State} {b v1 v0 m1 m0 src kind num opt l1 l0 : Byte} {i : SubIndex}

theorem subscribeBody_of_above (above : 31 < b.toNat) :
    subscribeBody [b, v1, v0, m1, m0, src, kind, num, opt, l1, l0] s = refuseWith s .badArgument := by
  simp only [subscribeBody, indexOf_eq_none (Nat.succ_le_of_lt above)]

theorem subscribeBody_of_used (index : b.toNat = i.val) (used : (s.accept.table[i]).state ≠ .free) :
    subscribeBody [b, v1, v0, m1, m0, src, kind, num, opt, l1, l0] s = refuseWith s .inUse := by
  simp only [subscribeBody, indexOf_eq_some index]
  exact if_pos used

theorem subscribeBody_of_free (index : b.toNat = i.val) (free : (s.accept.table[i]).state = .free) :
    subscribeBody [b, v1, v0, m1, m0, src, kind, num, opt, l1, l0] s =
      match sourceConstraintOf src, targetOf kind num with
      | some constraint, some target =>
        if opt.toNat < 32 ∧ subscribeAllowed s (m1 ++ m0) target (opt.getLsbD 4) (l1 ++ l0).toNat = true then
          (settleBooking (subscribed s i
            (subscribedEntry (v1 ++ v0) (m1 ++ m0) constraint target opt (l1 ++ l0).toNat)), plain .ok)
        else refuseWith s .badArgument
      | _, _ => refuseWith s .badArgument := by
  simp only [subscribeBody, indexOf_eq_some index]
  exact if_neg (not_not.mpr free)

theorem subscribeBody_of_unusable (index : b.toNat = i.val) (free : (s.accept.table[i]).state = .free)
    (unusable : ∀ constraint target, sourceConstraintOf src = some constraint → targetOf kind num = some target →
      ¬ (opt.toNat < 32 ∧ subscribeAllowed s (m1 ++ m0) target (opt.getLsbD 4) (l1 ++ l0).toNat = true)) :
    subscribeBody [b, v1, v0, m1, m0, src, kind, num, opt, l1, l0] s = refuseWith s .badArgument := by
  rw [subscribeBody_of_free index free]
  split
  · rename_i constraint target source named
    exact if_neg (unusable constraint target source named)
  · rfl

theorem subscribeBody_of_usable {target : Target} (index : b.toNat = i.val) (free : (s.accept.table[i]).state = .free)
    (valid : src = 0xFF ∨ src.toNat < 32) (options : opt.toNat < 32) (named : targetOf kind num = some target)
    (allowed : subscribeAllowed s (m1 ++ m0) target (opt.getLsbD 4) (l1 ++ l0).toNat = true) :
    subscribeBody [b, v1, v0, m1, m0, src, kind, num, opt, l1, l0] s =
      (settleBooking (subscribed s i (subscribedEntry (v1 ++ v0) (m1 ++ m0)
        (if src = 0xFF then none else some (Fin.ofNat 32 src.toNat)) target opt (l1 ++ l0).toNat)), plain .ok) := by
  rw [subscribeBody_of_free index free, sourceConstraintOf_of_valid valid, named]
  exact if_pos ⟨options, allowed⟩

end Body

theorem subscribeAllowed_queue_iff (s : State) (mask : Topic) (q : QueueNo) (recallOption : Bool) (limit : Nat) :
    subscribeAllowed s mask (.queue q) recallOption limit = true ↔
      (∃ r, s.session.record = some r ∧ r.quotas[q] ≠ 0) ∧ limit = 0 ∧ recallOption = false := by
  unfold subscribeAllowed quotaOf
  cases s.session.record with
  | none => simp
  | some r =>
    dsimp only
    simp only [Bool.and_eq_true, decide_eq_true_eq, Bool.not_eq_true', Option.some.injEq, exists_eq_left', and_assoc]
    rw [Nat.pos_iff_ne_zero]

theorem subscribeAllowed_slot_iff (s : State) (mask : Topic) (k : SlotNo) (recallOption : Bool) (limit : Nat) :
    subscribeAllowed s mask (.slot k) recallOption limit = true ↔ (recallOption = true → mask.toNat = 0xFFFF) := by
  have full : mask = 0xFFFF ↔ mask.toNat = 0xFFFF :=
    ⟨fun same => by rw [same]; rfl, fun same => BitVec.eq_of_toNat_eq same⟩
  unfold subscribeAllowed
  rw [Bool.or_eq_true, beq_iff_eq, full]
  cases recallOption <;> simp

/-- The arguments that R63, step 3, refuses name no source, no target, or a target that does not take the rest. -/
theorem unusable_arguments {s : State} {m1 m0 src kind num opt l1 l0 : Byte}
    (bad : (src ≠ 0xFF ∧ 31 < src.toNat) ∨ 1 < kind.toNat ∨ (kind = 0 ∧ 7 < num.toNat) ∨ (kind = 1 ∧ 63 < num.toNat) ∨
      (kind = 0 ∧ ∃ q : QueueNo, num.toNat = q.val ∧ ∀ r, s.session.record = some r → r.quotas[q] = 0) ∨
      (kind = 0 ∧ (l1 ++ l0).toNat ≠ 0) ∨
      (opt.getLsbD 4 = true ∧ (kind = 0 ∨ (m1 ++ m0).toNat ≠ 0xFFFF)) ∨ 31 < opt.toNat)
    (constraint : Option Station) (target : Target) (source : sourceConstraintOf src = some constraint)
    (named : targetOf kind num = some target) :
    ¬ (opt.toNat < 32 ∧ subscribeAllowed s (m1 ++ m0) target (opt.getLsbD 4) (l1 ++ l0).toNat = true) := by
  rintro ⟨options, allowed⟩
  obtain ⟨some, above⟩ | above | ⟨rfl, above⟩ | ⟨rfl, above⟩ | rest := bad
  · rw [sourceConstraintOf_of_invalid some above] at source
    cases source
  · rw [targetOf_of_kind_above num above] at named
    cases named
  · rw [targetOf_of_queue_above above] at named
    cases named
  · rw [targetOf_of_slot_above above] at named
    cases named
  obtain ⟨rfl, q, number, rfl⟩ | ⟨rfl, k, number, rfl⟩ := kind_of_targetOf named
  · obtain ⟨⟨r, record, quota⟩, limit, plainOption⟩ := (subscribeAllowed_queue_iff _ _ _ _ _).mp allowed
    obtain ⟨-, q', number', closed⟩ | ⟨-, nonzero⟩ | ⟨recalls, -⟩ | above := rest
    · obtain rfl : q' = q := Fin.ext (number'.symm.trans number)
      exact quota (closed r record)
    · exact nonzero limit
    · rw [plainOption] at recalls
      cases recalls
    · omega
  · have full := (subscribeAllowed_slot_iff _ _ _ _ _).mp allowed
    obtain ⟨zero, -⟩ | ⟨zero, -⟩ | ⟨recalls, zero | partly⟩ | above := rest
    · cases zero
    · cases zero
    · cases zero
    · exact partly (full recalls)
    · omega

/-! ## The accepted subscriptions -/

theorem subscribedEntry_queue {options : Byte} {limit : Nat} (value mask : Topic) (source : Option Station) (q : QueueNo)
    (unlimited : limit = 0) (plainOption : options.getLsbD 4 = false) :
    subscribedEntry value mask source (.queue q) options limit =
      { state := .active, value := value, mask := mask, source := source, target := .queue q,
        keepOn := options.getLsbD 0, spill := options.getLsbD 1, acceptSelf := options.getLsbD 2,
        track := options.getLsbD 3, recallOption := false, limit := 0, engaged := false } := by
  unfold subscribedEntry
  rw [plainOption, unlimited]

/-- Without RECALL, SUBSCRIBE asks for nothing. -/
theorem subscribed_of_plain {s : State} {i : SubIndex} {e : SubEntry} (option : e.recallOption = false) :
    subscribed s i e = handLimit (s.updSub i fun _ => e) e.target e.limit := by
  unfold subscribed
  rw [option]
  rfl

/-- With RECALL, SUBSCRIBE asks for its topic (R65). -/
theorem subscribed_of_recall {s : State} {i : SubIndex} {e : SubEntry} (option : e.recallOption = true) :
    subscribed s i e = requestRecall (handLimit (s.updSub i fun _ => e) e.target e.limit) e.value .fill := by
  unfold subscribed
  rw [option]
  rfl

/-- A limit handed to a FRESH slot starts its deadline afresh (R105). -/
theorem setLimit_of_fresh {x : Slot} (fresh : x.state = .fresh) (limit : Nat) :
    x.setLimit limit = { x with limit := limit, deadline := if limit = 0 then none else some (limit * 1000) } := by
  unfold Slot.setLimit
  rw [fresh]
  rfl

theorem setLimit_of_not_fresh {x : Slot} (other : x.state ≠ .fresh) (limit : Nat) : x.setLimit limit = { x with limit := limit } := by
  unfold Slot.setLimit
  split
  · rename_i fresh
    exact absurd fresh other
  all_goals rfl

/-- A subscription to a slot, before the booking is settled: what it changes. -/
theorem subscribed_slot {s : State} {i : SubIndex} {e : SubEntry} {k : SlotNo} (target : e.target = .slot k) :
    ∃ cont pubs, subscribed s i e =
        { s with accept := { s.accept with table := upd s.accept.table i fun _ => e },
                 store := { s.store with slots := upd s.store.slots k fun x => x.setLimit e.limit },
                 pubs := pubs, cont := cont } ∧
      pubs = { s.pubs with items := pubs.items, placements := pubs.placements } ∧
      cont = { s.cont with recalls := cont.recalls } ∧
      (e.recallOption = false → cont = s.cont ∧ pubs = s.pubs) ∧
      (e.recallOption = true → Recalled s (subscribed s i e) [e.value] .fill) := by
  have handed : handLimit (s.updSub i fun _ => e) e.target e.limit =
      { s with accept := { s.accept with table := upd s.accept.table i fun _ => e },
               store := { s.store with slots := upd s.store.slots k fun x => x.setLimit e.limit } } := by
    rw [target]
    rfl
  cases option : e.recallOption with
  | false => exact ⟨s.cont, s.pubs, (subscribed_of_plain option).trans handed, rfl, rfl, fun _ => ⟨rfl, rfl⟩, nofun⟩
  | true =>
    have recalled := requestRecalls_recalled (handLimit (s.updSub i fun _ => e) e.target e.limit) [e.value] .fill
    have made := subscribed_of_recall (s := s) (i := i) option
    rw [List.foldl_cons, List.foldl_nil, ← made, handed] at recalled
    have changed := requestRecall_eq (handLimit (s.updSub i fun _ => e) e.target e.limit) e.value .fill
    rw [← made, handed] at changed
    have tracker := recalled.2.1
    have table := recalled.2.2.1
    refine ⟨(subscribed s i e).cont, (subscribed s i e).pubs, changed, ?_, ?_, nofun, fun _ => recalled⟩
    · exact congrArg (fun t => { (subscribed s i e).pubs with table := t }) table
    · exact congrArg (fun t => { (subscribed s i e).cont with tracker := t }) tracker

/-- SUBSCRIBE for a queue (R63, R64). -/
theorem subscribe_queue {s : State} {b v1 v0 m1 m0 src num opt l1 l0 : Byte} {i : SubIndex} {q : QueueNo} {r : Record}
    (executes : Executes s 0x20 [b, v1, v0, m1, m0, src, 0, num, opt, l1, l0]) (index : b.toNat = i.val)
    (free : (s.accept.table[i]).state = .free) (valid : src = 0xFF ∨ src.toNat < 32) (options : opt.toNat < 32)
    (number : num.toNat = q.val) (record : s.session.record = some r) (quota : r.quotas[q] ≠ 0)
    (unlimited : (l1 ++ l0).toNat = 0) (plainOption : opt.getLsbD 4 = false) :
    ∃ t, exec (.subscribe [b, v1, v0, m1, m0, src, 0, num, opt, l1, l0]) s = .next t ∧
      t = answered { s with accept := { s.accept with table := t.accept.table },
                            access := { s.access with booking := t.access.booking } } ⟨.ok, []⟩ ∧
      SettledBooking s t ∧
      t.accept.table[i] =
        { state := .active, value := v1 ++ v0, mask := m1 ++ m0,
          source := if src = 0xFF then none else some (Fin.ofNat 32 src.toNat), target := .queue q,
          keepOn := opt.getLsbD 0, spill := opt.getLsbD 1, acceptSelf := opt.getLsbD 2, track := opt.getLsbD 3,
          recallOption := false, limit := 0, engaged := false } ∧
      ∀ j : SubIndex, j ≠ i → t.accept.table[j] = s.accept.table[j] := by
  have next := exec_subscribe_of_executes executes
  rw [subscribeBody_of_usable index free valid options (targetOf_of_queue number)
    ((subscribeAllowed_queue_iff _ _ _ _ _).mpr ⟨⟨r, record, quota⟩, unlimited, plainOption⟩)] at next
  have entry := subscribedEntry_queue (v1 ++ v0) (m1 ++ m0) (if src = 0xFF then none else some (Fin.ofNat 32 src.toNat)) q
    unlimited plainOption
  rw [subscribed_of_plain plainOption, entry] at next
  obtain ⟨booking, booked, settled⟩ := settleBooking_with (s := s) (u := s.updSub i fun _ => _) rfl rfl rfl
  exact ⟨_, next.trans (congrArg (fun t => Host.Outcome.next (answered t _)) booked), rfl, settled.answered _,
    upd_getElem_self _ _ _, fun j other => upd_getElem_of_ne _ _ other.symm⟩

/-- SUBSCRIBE for a slot (R63, R64, R65). -/
theorem subscribe_slot {s : State} {b v1 v0 m1 m0 src num opt l1 l0 : Byte} {i : SubIndex} {k : SlotNo}
    (executes : Executes s 0x20 [b, v1, v0, m1, m0, src, 1, num, opt, l1, l0]) (index : b.toNat = i.val)
    (free : (s.accept.table[i]).state = .free) (valid : src = 0xFF ∨ src.toNat < 32) (options : opt.toNat < 32)
    (number : num.toNat = k.val) (whole : opt.getLsbD 4 = true → (m1 ++ m0).toNat = 0xFFFF) :
    ∃ t, exec (.subscribe [b, v1, v0, m1, m0, src, 1, num, opt, l1, l0]) s = .next t ∧
      t = answered { s with accept := { s.accept with table := t.accept.table },
                            access := { s.access with booking := t.access.booking },
                            store := { s.store with slots := t.store.slots },
                            pubs := { s.pubs with items := t.pubs.items, placements := t.pubs.placements },
                            cont := { s.cont with recalls := t.cont.recalls } } ⟨.ok, []⟩ ∧
      SettledBooking s t ∧
      t.accept.table[i] =
        { state := .active, value := v1 ++ v0, mask := m1 ++ m0,
          source := if src = 0xFF then none else some (Fin.ofNat 32 src.toNat), target := .slot k,
          keepOn := opt.getLsbD 0, spill := opt.getLsbD 1, acceptSelf := opt.getLsbD 2, track := opt.getLsbD 3,
          recallOption := opt.getLsbD 4, limit := (l1 ++ l0).toNat, engaged := false } ∧
      (∀ j : SubIndex, j ≠ i → t.accept.table[j] = s.accept.table[j]) ∧
      ((s.store.slots[k]).state = .fresh → t.store.slots[k] = { s.store.slots[k] with
        limit := (l1 ++ l0).toNat,
        deadline := if (l1 ++ l0).toNat = 0 then none else some ((l1 ++ l0).toNat * 1000) }) ∧
      ((s.store.slots[k]).state ≠ .fresh →
        t.store.slots[k] = { s.store.slots[k] with limit := (l1 ++ l0).toNat }) ∧
      (∀ j : SlotNo, j ≠ k → t.store.slots[j] = s.store.slots[j]) ∧
      (opt.getLsbD 4 = false → t.cont = s.cont ∧ t.pubs = s.pubs) ∧
      (opt.getLsbD 4 = true → Recalled s t [v1 ++ v0] .fill) := by
  have next := exec_subscribe_of_executes executes
  rw [subscribeBody_of_usable index free valid options (targetOf_of_slot number)
    ((subscribeAllowed_slot_iff _ _ _ _ _).mpr whole)] at next
  obtain ⟨cont, pubs, made, pubsKept, contKept, plainOption, recalled⟩ :=
    subscribed_slot (s := s) (i := i) (e := subscribedEntry (v1 ++ v0) (m1 ++ m0)
      (if src = 0xFF then none else some (Fin.ofNat 32 src.toNat)) (.slot k) opt (l1 ++ l0).toNat) rfl
  rw [made] at next recalled
  generalize entry : subscribedEntry (v1 ++ v0) _ _ _ opt _ = e at next recalled plainOption
  have limit : e.limit = (l1 ++ l0).toNat := by rw [← entry]; rfl
  have option : e.recallOption = opt.getLsbD 4 := by rw [← entry]; rfl
  have value : e.value = v1 ++ v0 := by rw [← entry]; rfl
  rw [limit] at next recalled
  rw [option] at plainOption recalled
  rw [value] at recalled
  obtain ⟨booking, booked, settled⟩ := settleBooking_with (s := s)
    (u := { s with accept := { s.accept with table := upd s.accept.table i fun _ => e },
                   store := { s.store with slots := upd s.store.slots k fun x => x.setLimit (l1 ++ l0).toNat },
                   pubs := pubs, cont := cont }) rfl rfl rfl
  refine ⟨_, next.trans (congrArg (fun t => Host.Outcome.next (answered t _)) booked), ?_, settled.answered _,
    (upd_getElem_self _ _ _).trans entry.symm, fun j other => upd_getElem_of_ne _ _ other.symm,
    fun fresh => (upd_getElem_self _ _ _).trans (setLimit_of_fresh fresh _),
    fun other => (upd_getElem_self _ _ _).trans (setLimit_of_not_fresh other _),
    fun j other => upd_getElem_of_ne _ _ other.symm,
    plainOption, recalled⟩
  rw [pubsKept, contKept]
  rfl

/-! ## UNSUBSCRIBE (R66) -/

/-- UNSUBSCRIBE in the port is taken by the Acceptance Unit (R66, R174). -/
theorem exec_unsubscribe_of_executes {s : State} {args : List Byte} (h : Executes s 0x21 args) :
    exec (.unsubscribe args) s = .next (answered (unsubscribeBody args s).1 (unsubscribeBody args s).2) :=
  congrArg Host.Outcome.next (takeCommand_executes (unsubscribeBody args) h)

theorem unsubscribeBody_of_above {b : Byte} (s : State) (above : 31 < b.toNat) :
    unsubscribeBody [b] s = refuseWith s .badArgument := by
  simp only [unsubscribeBody, indexOf_eq_none (Nat.succ_le_of_lt above)]

theorem unsubscribeBody_of_index {b : Byte} {i : SubIndex} (s : State) (index : b.toNat = i.val) :
    unsubscribeBody [b] s =
      match (s.accept.table[i]).state with
      | .free => refuseWith s .notFound
      | .active => (s.updSub i fun e => if e.engaged then { e with state := .withdrawing } else SubEntry.initial, plain .ok)
      | .withdrawing => (s, plain .ok) := by
  simp only [unsubscribeBody, indexOf_eq_some index] <;> rfl

/-- UNSUBSCRIBE of an ACTIVE entry (R66). -/
theorem unsubscribe_active {s : State} {b : Byte} {i : SubIndex} (executes : Executes s 0x21 [b]) (index : b.toNat = i.val)
    (active : (s.accept.table[i]).state = .active) :
    ∃ t, exec (.unsubscribe [b]) s = .next t ∧
      t = answered { s with accept := { s.accept with table := t.accept.table } } ⟨.ok, []⟩ ∧
      ((s.accept.table[i]).engaged = false → t.accept.table[i] = SubEntry.initial) ∧
      ((s.accept.table[i]).engaged = true → t.accept.table[i] = { s.accept.table[i] with state := .withdrawing }) ∧
      ∀ j : SubIndex, j ≠ i → t.accept.table[j] = s.accept.table[j] := by
  have next := exec_unsubscribe_of_executes executes
  rw [unsubscribeBody_of_index s index, active] at next
  exact ⟨_, next, rfl,
    fun idle => (upd_getElem_self _ _ _).trans (if_neg fun engaged => Bool.false_ne_true (idle.symm.trans engaged)),
    fun engaged => (upd_getElem_self _ _ _).trans (if_pos engaged),
    fun j other => upd_getElem_of_ne _ _ other.symm⟩

/-- Settles O42: the refusals are the arguments that no source or no target fits, and each accepted command changes its
entry, its slot and the recalls. -/
theorem subscriptionsAreMadeAndRemoved : Obligations.SubscriptionsAreMadeAndRemoved := by
  refine ⟨fun s b v1 v0 m1 m0 src kind num opt l1 l0 executes => ⟨fun above => ?above, fun i index =>
    ⟨fun used => ?used, fun free bad => ?bad, fun free valid options =>
      ⟨fun q r queue number record quota unlimited plainOption => ?queue, fun k slot number whole => ?slot⟩⟩⟩,
    fun s b executes => ⟨fun above => ?unsubscribeAbove, fun i index => ⟨fun free => ?notFound, fun withdrawing => ?again,
      unsubscribe_active executes index⟩⟩⟩
  case above =>
    rw [exec_subscribe_of_executes executes, subscribeBody_of_above above]
    rfl
  case used =>
    rw [exec_subscribe_of_executes executes, subscribeBody_of_used index used]
    rfl
  case bad =>
    rw [exec_subscribe_of_executes executes, subscribeBody_of_unusable index free (unusable_arguments bad)]
    rfl
  case queue =>
    subst queue
    exact subscribe_queue executes index free valid options number record quota unlimited plainOption
  case slot =>
    subst slot
    exact subscribe_slot executes index free valid options number whole
  case unsubscribeAbove =>
    rw [exec_unsubscribe_of_executes executes, unsubscribeBody_of_above s above]
    rfl
  case notFound =>
    rw [exec_unsubscribe_of_executes executes, unsubscribeBody_of_index s index, free]
    rfl
  case again =>
    rw [exec_unsubscribe_of_executes executes, unsubscribeBody_of_index s index, withdrawing]
    rfl

end Sys2Proof.Machine
end

section
/-! DECLARE, WRITE VALUE and WITHDRAW (7.2). -/

namespace Sys2Proof.Machine

/-! ## Making an entry pending, case by case (R122) -/

theorem updPub_self (s : State) (i : PubIndex) (g : PubEntry → PubEntry) : (s.updPub i g).pubs.table[i] = g s.pubs.table[i] :=
  upd_getElem_self _ _ _

theorem updPub_other {i j : PubIndex} (s : State) (g : PubEntry → PubEntry) (other : j ≠ i) :
    (s.updPub i g).pubs.table[j] = s.pubs.table[j] := upd_getElem_of_ne _ _ other.symm

theorem makePendingNew_of_no_value {s : State} {i : PubIndex} (empty : (s.pubs.table[i]).hasValue = false) :
    makePendingNew s i = s :=
  if_neg fun ready => Bool.false_ne_true (empty.symm.trans ready.2)

theorem makePendingNew_of_new {s : State} {i : PubIndex} (new : (s.pubs.table[i]).item = some .newValue) :
    makePendingNew s i = s := by
  unfold makePendingNew
  dsimp only
  rw [new]
  exact ite_self s

theorem makePendingNew_of_no_item {s : State} {i : PubIndex} (active : (s.pubs.table[i]).state = .active)
    (value : (s.pubs.table[i]).hasValue = true) (none : (s.pubs.table[i]).item = .none) :
    makePendingNew s i =
      placeItem (s.updPub i fun e => { e with item := some .newValue }) (.update i) (s.pubs.table[i]).cls := by
  unfold makePendingNew
  dsimp only
  rw [if_pos ⟨active, value⟩, none]

theorem makePendingNew_other {s : State} {i j : PubIndex} (other : j ≠ i) :
    (makePendingNew s i).pubs.table[j] = s.pubs.table[j] := by
  unfold makePendingNew
  dsimp only
  split
  · split
    · exact updPub_other s _ other
    · exact updPub_other s _ other
    · rfl
  · rfl

/-! ## DECLARE (R118) -/

/-- DECLARE in the port is taken by the Publication Unit (R118, R174). -/
theorem exec_declare_of_executes {s : State} {args : List Byte} (h : Executes s 0x50 args) :
    exec (.declare args) s = .next (answered (declareBody args s).1 (declareBody args s).2) :=
  congrArg Host.Outcome.next (takeCommand_executes (declareBody args) h)

/-- A length that the value does not have, or that is above 32, is no value (R190). -/
theorem declaredValue_of_wrong {n : Byte} {v : List Byte} (wrong : v.length ≠ n.toNat ∨ 32 < n.toNat) :
    declaredValue (n :: v) = none :=
  if_neg fun ⟨length, low⟩ => wrong.elim (fun other => other length) fun above => absurd low (Nat.not_le.mpr above)

/-- The argument bytes of a value are read back as the value. -/
theorem declaredValue_of_value {value : Option (List Byte)} {tail : List Byte}
    (given : (value = none ∧ tail = []) ∨ ∃ v, value = some v ∧ v.length ≤ 32 ∧ tail = byteOf v.length :: v) :
    declaredValue tail = some value := by
  obtain ⟨rfl, rfl⟩ | ⟨v, rfl, low, rfl⟩ := given
  · rfl
  · have length : (byteOf v.length).toNat = v.length := by
      unfold byteOf
      rw [BitVec.toNat_ofNat]
      exact Nat.mod_eq_of_lt (by omega)
    exact if_pos ⟨length.symm, by omega⟩

theorem declareBody_of_wrong {args : List Byte} (s : State)
    (wrong : args.length < 7 ∨ ∃ b t1 t0 cls mode p1 p0 n v, args = b :: t1 :: t0 :: cls :: mode :: p1 :: p0 :: n :: v ∧
      (v.length ≠ n.toNat ∨ 32 < n.toNat)) : declareBody args s = refuseWith s .badArgument := by
  obtain short | ⟨b, t1, t0, cls, mode, p1, p0, n, v, rfl, wrong⟩ := wrong
  · unfold declareBody
    split
    · simp only [List.length_cons] at short
      omega
    · rfl
  · simp only [declareBody, declaredValue_of_wrong wrong]

theorem modeOf_eq_some {mode : Byte} {m : PubMode}
    (named : (mode = 1 ∧ m = .periodic) ∨ (mode = 2 ∧ m = .onWrite) ∨ (mode = 3 ∧ m = .both)) : modeOf mode = some m := by
  obtain ⟨rfl, rfl⟩ | ⟨rfl, rfl⟩ | ⟨rfl, rfl⟩ := named <;> rfl

theorem modeOf_eq_none {mode : Byte} (outside : mode.toNat = 0 ∨ 3 < mode.toNat) : modeOf mode = none := by
  unfold modeOf
  split
  · omega
  · omega
  · omega
  · rfl

section Body

variable {s : State} {b t1 t0 cls mode p1 p0 : Byte} {tail : List Byte} {value : Option (List Byte)} {i : PubIndex}

theorem declareBody_of_above (given : declaredValue tail = some value) (above : 31 < b.toNat) :
    declareBody (b :: t1 :: t0 :: cls :: mode :: p1 :: p0 :: tail) s = refuseWith s .badArgument := by
  simp only [declareBody, given, indexOf_eq_none (Nat.succ_le_of_lt above)]

theorem declareBody_of_used (given : declaredValue tail = some value) (index : b.toNat = i.val)
    (used : (s.pubs.table[i]).state ≠ .free) :
    declareBody (b :: t1 :: t0 :: cls :: mode :: p1 :: p0 :: tail) s = refuseWith s .inUse := by
  simp only [declareBody, given, indexOf_eq_some index]
  exact if_pos used

theorem declareBody_of_free (given : declaredValue tail = some value) (index : b.toNat = i.val)
    (free : (s.pubs.table[i]).state = .free) :
    declareBody (b :: t1 :: t0 :: cls :: mode :: p1 :: p0 :: tail) s =
      match indexOf 8 cls, modeOf mode with
      | some c, some m =>
        if c.val = 0 ∨ c.val = 7 ∨ (p1 ++ p0).toNat = 0 then refuseWith s .badArgument
        else if ownsTopic s (t1 ++ t0) then refuseWith s .duplicateTopic
        else (if s.session.state = .member then
            settleBooking (declareAt s i (declaredEntry (t1 ++ t0) c m (p1 ++ p0).toNat value))
          else declareAt s i (declaredEntry (t1 ++ t0) c m (p1 ++ p0).toNat value), plain .ok)
      | _, _ => refuseWith s .badArgument := by
  simp only [declareBody, declareAt, given, indexOf_eq_some index]
  rw [if_neg (not_not.mpr free)]
  by_cases member : s.session.state = .member
  · simp only [if_pos member] <;> rfl
  · simp only [if_neg member] <;> rfl

theorem declareBody_of_bad (given : declaredValue tail = some value) (index : b.toNat = i.val)
    (free : (s.pubs.table[i]).state = .free)
    (bad : cls.toNat = 0 ∨ 6 < cls.toNat ∨ mode.toNat = 0 ∨ 3 < mode.toNat ∨ (p1 ++ p0).toNat = 0) :
    declareBody (b :: t1 :: t0 :: cls :: mode :: p1 :: p0 :: tail) s = refuseWith s .badArgument := by
  rw [declareBody_of_free given index free]
  split
  · rename_i c m cls' mode'
    refine if_pos ?_
    have same : c.val = cls.toNat := by
      unfold indexOf at cls'
      split at cls'
      · cases cls'
        rfl
      · cases cls'
    have inside : ¬ (mode.toNat = 0 ∨ 3 < mode.toNat) := fun outside => by
      rw [modeOf_eq_none outside] at mode'
      cases mode'
    have low := c.isLt
    omega
  · rfl

variable {c : FrameClass} {m : PubMode}

theorem declareBody_of_good (given : declaredValue tail = some value) (index : b.toNat = i.val)
    (free : (s.pubs.table[i]).state = .free) (cls' : cls.toNat = c.val) (low : 1 ≤ c.val) (high : c.val ≤ 6)
    (mode' : modeOf mode = some m) (period : (p1 ++ p0).toNat ≠ 0) :
    declareBody (b :: t1 :: t0 :: cls :: mode :: p1 :: p0 :: tail) s =
      if ownsTopic s (t1 ++ t0) then refuseWith s .duplicateTopic
      else (if s.session.state = .member then
          settleBooking (declareAt s i (declaredEntry (t1 ++ t0) c m (p1 ++ p0).toNat value))
        else declareAt s i (declaredEntry (t1 ++ t0) c m (p1 ++ p0).toNat value), plain .ok) := by
  rw [declareBody_of_free given index free, indexOf_eq_some cls', mode']
  exact if_neg (by omega)

end Body

theorem isPeriodic_iff (m : PubMode) : m.isPeriodic = true ↔ m ≠ .onWrite := by
  cases m <;> simp [PubMode.isPeriodic]

/-- The periodic timer is started with the full period in the modes PERIODIC and BOTH (R118). -/
theorem startPeriod_eq (e : PubEntry) : e.startPeriod =
    { e with periodicTimer := if e.mode ≠ .onWrite then some (e.period * 1000) else e.periodicTimer } := by
  unfold PubEntry.startPeriod
  by_cases periodic : e.mode ≠ .onWrite
  · rw [if_pos ((isPeriodic_iff _).mpr periodic), if_pos periodic]
    rfl
  · rw [if_neg (fun is => periodic ((isPeriodic_iff _).mp is)), if_neg periodic]

theorem declareAt_other {s : State} {i j : PubIndex} (e : PubEntry) (other : j ≠ i) :
    (declareAt s i e).pubs.table[j] = s.pubs.table[j] := by
  unfold declareAt
  split
  · rw [updPub_other _ _ other, makePendingNew_other other, updPub_other _ _ other]
  · exact updPub_other _ _ other

/-- Outside MEMBER a declared entry only stands in the table. -/
theorem declareAt_elsewhere {s : State} {i : PubIndex} (e : PubEntry) (outside : s.session.state ≠ .member) :
    declareAt s i e = s.updPub i fun _ => e := if_neg outside

/-- In MEMBER an entry without a value is not pending. -/
theorem declareAt_no_value {s : State} {i : PubIndex} {e : PubEntry} (member : s.session.state = .member)
    (empty : e.hasValue = false) :
    declareAt s i e = (s.updPub i fun _ => e).updPub i PubEntry.startPeriod := by
  have entry : (s.updPub i fun _ => e).pubs.table[i] = e := updPub_self s i _
  unfold declareAt
  rw [if_pos member, makePendingNew_of_no_value (by rw [entry]; exact empty)]

/-- In MEMBER an entry with a value is pending NEW (R122). -/
theorem declareAt_value {s : State} {i : PubIndex} {e : PubEntry} (member : s.session.state = .member)
    (active : e.state = .active) (value : e.hasValue = true) (none : e.item = .none) :
    declareAt s i e = (placeItem ((s.updPub i fun _ => e).updPub i fun e => { e with item := some .newValue })
      (.update i) e.cls).updPub i PubEntry.startPeriod := by
  have entry : (s.updPub i fun _ => e).pubs.table[i] = e := updPub_self s i _
  unfold declareAt
  rw [if_pos member, makePendingNew_of_no_item (by rw [entry]; exact active) (by rw [entry]; exact value)
    (by rw [entry]; exact none), entry]

/-- The entry and the transmit list after an accepted DECLARE. -/
theorem declareAt_entry (s : State) (i : PubIndex) (topic : Topic) (c : FrameClass) (m : PubMode) (period : Nat)
    (value : Option (List Byte)) :
    let t := declareAt s i (declaredEntry topic c m period value)
    t.pubs.table[i] = { declaredEntry topic c m period value with
      item := if s.session.state = .member ∧ value.isSome = true then some .newValue else none,
      periodicTimer := if s.session.state = .member ∧ m ≠ .onWrite then some (period * 1000) else none } ∧
    (s.session.state = .member → value.isSome = true → t.pubs.items =
      insertItem { kind := .update i, cls := c, attempts := 0, placed := s.pubs.placements } s.pubs.items) ∧
    (s.session.state ≠ .member ∨ value = none → t.pubs.items = s.pubs.items) := by
  dsimp only
  by_cases member : s.session.state = .member
  · simp only [member, true_and]
    cases value with
    | none =>
      rw [declareAt_no_value member rfl]
      refine ⟨?_, fun _ => nofun, fun _ => rfl⟩
      rw [updPub_self, updPub_self, startPeriod_eq]
      rfl
    | some v =>
      rw [declareAt_value member rfl rfl rfl]
      refine ⟨?_, fun _ _ => rfl, fun outside => outside.elim (fun other => absurd rfl other) nofun⟩
      rw [updPub_self, startPeriod_eq]
      have entry := (updPub_self (s.updPub i fun _ => declaredEntry topic c m period (some v)) i
        fun e => { e with item := some .newValue }).trans
          (congrArg (fun e : PubEntry => { e with item := some UpdateKind.newValue }) (updPub_self s i _))
      exact congrArg (fun e : PubEntry =>
        { e with periodicTimer := if e.mode ≠ PubMode.onWrite then some (e.period * 1000) else e.periodicTimer }) entry
  · rw [declareAt_elsewhere _ member]
    refine ⟨?_, fun member' => absurd member' member, fun _ => rfl⟩
    rw [updPub_self, if_neg (fun both => member both.1), if_neg (fun both => member both.1)]
    rfl

/-- Settles O43: the refusals come in the order of R118, and an accepted DECLARE is `declareAt`. -/
theorem declareMakesAPublication : Obligations.DeclareMakesAPublication := by
  refine ⟨fun s args executes wrong => ?wrong, fun s b t1 t0 cls mode p1 p0 tail value given executes =>
    ⟨fun above => ?above, fun i index => ⟨fun used => ?used, fun free bad => ?bad,
      fun c m free cls' low high mode' period => ⟨fun own => ?own, fun new => ?declared⟩⟩⟩⟩
  case wrong =>
    rw [exec_declare_of_executes executes, declareBody_of_wrong s wrong]
    rfl
  case above =>
    rw [exec_declare_of_executes executes, declareBody_of_above (declaredValue_of_value given) above]
    rfl
  case used =>
    rw [exec_declare_of_executes executes, declareBody_of_used (declaredValue_of_value given) index used]
    rfl
  case bad =>
    rw [exec_declare_of_executes executes, declareBody_of_bad (declaredValue_of_value given) index free bad]
    rfl
  case own =>
    rw [exec_declare_of_executes executes, declareBody_of_good (declaredValue_of_value given) index free cls' low high
      (modeOf_eq_some mode') period, if_pos ((ownsTopic_iff s _).mpr own)]
    rfl
  case declared =>
    have next := exec_declare_of_executes executes
    rw [declareBody_of_good (declaredValue_of_value given) index free cls' low high (modeOf_eq_some mode') period,
      if_neg fun own => new ((ownsTopic_iff s _).mp own)] at next
    obtain ⟨entry, placed, unplaced⟩ := declareAt_entry s i (t1 ++ t0) c m (p1 ++ p0).toNat value
    have others := fun j : PubIndex => declareAt_other (s := s) (i := i) (j := j)
      (declaredEntry (t1 ++ t0) c m (p1 ++ p0).toNat value)
    have changed := declareAt_eq s i (declaredEntry (t1 ++ t0) c m (p1 ++ p0).toNat value)
    generalize declareAt s i (declaredEntry (t1 ++ t0) c m (p1 ++ p0).toNat value) = u at next entry placed unplaced others changed
    by_cases member : s.session.state = .member
    · obtain ⟨booking, booked, settled⟩ := settleBooking_with (s := s) (u := u) (by rw [changed]; rfl) (by rw [changed]; rfl)
        (by rw [changed]; rfl)
      rw [if_pos member, booked] at next
      refine ⟨_, next, ?_, others, entry, placed, unplaced, fun _ => settled.answered _, absurd member⟩
      rw [changed]
      rfl
    · rw [if_neg member] at next
      refine ⟨_, next, ?_, others, entry, placed, unplaced, fun member' => absurd member' member, fun _ => ?_⟩
      · rw [changed]
        rfl
      · rw [changed]
        rfl

/-! ## WRITE VALUE (R119) -/

/-- WRITE VALUE in the port is taken by the Publication Unit (R119, R174). -/
theorem exec_writeValue_of_executes {s : State} {args : List Byte} (h : Executes s 0x51 args) :
    exec (.writeValue args) s = .next (answered (writeValueBody args s).1 (writeValueBody args s).2) :=
  congrArg Host.Outcome.next (takeCommand_executes (writeValueBody args) h)

theorem writeValueBody_of_wrong {args : List Byte} (s : State)
    (wrong : args.length < 2 ∨ ∃ b n v, args = b :: n :: v ∧ (v.length ≠ n.toNat ∨ 32 < n.toNat)) :
    writeValueBody args s = refuseWith s .badArgument := by
  obtain short | ⟨b, n, v, rfl, wrong⟩ := wrong
  · unfold writeValueBody
    split
    · simp only [List.length_cons] at short
      omega
    · rfl
  · exact if_pos wrong

section Body

variable {s : State} {b : Byte} {i : PubIndex} {value : List Byte}

/-- The length byte of a value of at most 32 bytes gives its length. -/
theorem length_matches (low : value.length ≤ 32) :
    ¬ (value.length ≠ (byteOf value.length).toNat ∨ 32 < (byteOf value.length).toNat) := by
  have length : (byteOf value.length).toNat = value.length := by
    unfold byteOf
    rw [BitVec.toNat_ofNat]
    exact Nat.mod_eq_of_lt (by omega)
  omega

theorem writeValueBody_of_above (low : value.length ≤ 32) (above : 31 < b.toNat) :
    writeValueBody (b :: byteOf value.length :: value) s = refuseWith s .badArgument := by
  simp only [writeValueBody, if_neg (length_matches low), indexOf_eq_none (Nat.succ_le_of_lt above)]

theorem writeValueBody_of_index (low : value.length ≤ 32) (index : b.toNat = i.val) :
    writeValueBody (b :: byteOf value.length :: value) s =
      match (s.pubs.table[i]).state with
      | .free | .withdrawing => refuseWith s .wrongState
      | .yielded => refuseWith s .yielded
      | .active => (settleBooking (writeEntry s i value), plain .ok) := by
  simp only [writeValueBody, if_neg (length_matches low), indexOf_eq_some index] <;> rfl

end Body

section WriteEntry

variable {s : State} {i : PubIndex} {value : List Byte}

theorem writeSends_iff (s : State) (i : PubIndex) : writeSends s i = true ↔
    (s.pubs.table[i]).mode ≠ .periodic ∧ (s.session.state = .member ∨ s.session.state = .leaving) := by
  unfold writeSends
  rw [Bool.and_eq_true, Bool.or_eq_true, beq_iff_eq, beq_iff_eq]
  refine and_congr_left fun _ => ?_
  cases (s.pubs.table[i]).mode <;> simp [PubMode.isOnWrite]

theorem not_writeSends_iff (s : State) (i : PubIndex) : ¬ writeSends s i = true ↔
    (s.pubs.table[i]).mode = .periodic ∨ (s.session.state ≠ .member ∧ s.session.state ≠ .leaving) := by
  rw [writeSends_iff]
  tauto

theorem writeEntry_of_silent (silent : ¬ writeSends s i = true) :
    writeEntry s i value = s.updPub i fun e => e.write value := if_neg silent

/-- A write while the item is in flight asks for another frame after it (R126). -/
theorem writeEntry_of_flight (sends : writeSends s i = true) (flight : (s.pubs.table[i]).inFlight = true) :
    writeEntry s i value = (s.updPub i fun e => e.write value).updPub i fun e => { e with rePend := true } :=
  (if_pos sends).trans (if_pos flight)

theorem writeEntry_of_waiting (waiting : (s.pubs.table[i]).inFlight = false) (item : (s.pubs.table[i]).item ≠ none) :
    writeEntry s i value = s.updPub i fun e => e.write value := by
  by_cases sends : writeSends s i = true
  · have new : ((s.updPub i fun e => e.write value).pubs.table[i]).item = some .newValue := by
      rw [updPub_self]
      exact (Option.ne_none_iff_exists'.mp item).elim fun k same => congrArg (Option.map fun _ => UpdateKind.newValue) same
    refine (if_pos sends).trans ((if_neg ?_).trans (makePendingNew_of_new new))
    rw [waiting]
    exact Bool.false_ne_true
  · exact writeEntry_of_silent sends

/-- A write to an ACTIVE entry without an item makes it pending NEW where it sends (R122). -/
theorem writeEntry_of_idle (active : (s.pubs.table[i]).state = .active) (idle : (s.pubs.table[i]).inFlight = false)
    (none : (s.pubs.table[i]).item = .none) (sends : writeSends s i = true) :
    writeEntry s i value =
      placeItem ((s.updPub i fun e => e.write value).updPub i fun e => { e with item := some .newValue }) (.update i)
        (s.pubs.table[i]).cls := by
  have entry : (s.updPub i fun e => e.write value).pubs.table[i] = (s.pubs.table[i]).write value := updPub_self s i _
  have pending := makePendingNew_of_no_item (s := s.updPub i fun e => e.write value) (i := i)
    (by rw [entry]; exact active) (by rw [entry]; rfl) (by rw [entry]; exact congrArg (Option.map _) none)
  rw [entry] at pending
  refine (if_pos sends).trans ((if_neg ?_).trans pending)
  rw [idle]
  exact Bool.false_ne_true

theorem writeEntry_other {j : PubIndex} (other : j ≠ i) : (writeEntry s i value).pubs.table[j] = s.pubs.table[j] := by
  unfold writeEntry
  dsimp only
  split
  · split
    · rw [updPub_other _ _ other, updPub_other _ _ other]
    · rw [makePendingNew_other other, updPub_other _ _ other]
  · exact updPub_other _ _ other

/-- A value written to an entry whose item is not in flight. -/
theorem write_of_not_inFlight {e : PubEntry} (idle : e.inFlight = false) : e.write value =
    { e with payload := value, hasValue := true, dirty := true, item := e.item.map fun _ => .newValue } := by
  unfold PubEntry.write
  rw [idle, Bool.or_false]

/-- A value written to an entry whose item is in flight is noted (R126). -/
theorem write_of_inFlight {e : PubEntry} (flight : e.inFlight = true) : e.write value =
    { e with payload := value, hasValue := true, dirty := true, item := e.item.map fun _ => .newValue,
             writtenSinceLatch := true } := by
  unfold PubEntry.write
  rw [flight, Bool.or_true]

end WriteEntry

/-- What a write leaves in an entry whose item is not in flight (R119, R122). -/
theorem writeEntry_idle_entry {s : State} {i : PubIndex} (value : List Byte) (active : (s.pubs.table[i]).state = .active)
    (idle : (s.pubs.table[i]).inFlight = false) :
    let t := writeEntry s i value
    t.pubs.table[i] = { s.pubs.table[i] with
      payload := value, hasValue := true, dirty := true, item := (t.pubs.table[i]).item } ∧
    ((s.pubs.table[i]).item ≠ none → (t.pubs.table[i]).item = some .newValue ∧ t.pubs.items = s.pubs.items) ∧
    ((s.pubs.table[i]).item = none → (s.pubs.table[i]).mode ≠ .periodic →
      s.session.state = .member ∨ s.session.state = .leaving →
      (t.pubs.table[i]).item = some .newValue ∧
      t.pubs.items =
        insertItem { kind := .update i, cls := (s.pubs.table[i]).cls, attempts := 0, placed := s.pubs.placements }
          s.pubs.items) ∧
    ((s.pubs.table[i]).item = none →
      (s.pubs.table[i]).mode = .periodic ∨ (s.session.state ≠ .member ∧ s.session.state ≠ .leaving) →
      (t.pubs.table[i]).item = none ∧ t.pubs.items = s.pubs.items) := by
  dsimp only
  have written := write_of_not_inFlight (value := value) idle
  cases item : (s.pubs.table[i]).item with
  | some k =>
    rw [writeEntry_of_waiting idle (by rw [item]; exact nofun), updPub_self, written, item]
    exact ⟨rfl, fun _ => ⟨rfl, rfl⟩, nofun, nofun⟩
  | none =>
    by_cases sends : writeSends s i = true
    · rw [writeEntry_of_idle active idle item sends]
      refine ⟨?_, fun waiting => absurd rfl waiting, fun _ _ _ => ⟨?_, rfl⟩,
        fun _ silent => absurd sends ((not_writeSends_iff s i).mpr silent)⟩
      · refine (updPub_self (s.updPub i fun e => e.write value) i _).trans ?_
        rw [updPub_self, written]
        exact congrArg (fun k => { s.pubs.table[i] with payload := value, hasValue := true, dirty := true, item := k })
          (congrArg PubEntry.item (updPub_self (s.updPub i fun e => e.write value) i
            fun e => { e with item := some .newValue })).symm
      · exact congrArg PubEntry.item (updPub_self (s.updPub i fun e => e.write value) i
          fun e => { e with item := some .newValue })
    · rw [writeEntry_of_silent sends, updPub_self, written, item]
      exact ⟨rfl, fun waiting => absurd rfl waiting, fun _ mode state => absurd ((writeSends_iff s i).mpr ⟨mode, state⟩) sends,
        fun _ _ => ⟨rfl, rfl⟩⟩

/-- What a write leaves in an entry whose item is in flight (R126). -/
theorem writeEntry_flight_entry {s : State} {i : PubIndex} (value : List Byte)
    (flight : (s.pubs.table[i]).inFlight = true) :
    let t := writeEntry s i value
    t.pubs.items = s.pubs.items ∧
    t.pubs.table[i] = { s.pubs.table[i] with
      payload := value, hasValue := true, dirty := true, writtenSinceLatch := true,
      item := (s.pubs.table[i]).item.map fun _ => .newValue, rePend := (t.pubs.table[i]).rePend } ∧
    ((s.pubs.table[i]).mode ≠ .periodic → s.session.state = .member ∨ s.session.state = .leaving →
      (t.pubs.table[i]).rePend = true) ∧
    ((s.pubs.table[i]).mode = .periodic ∨ (s.session.state ≠ .member ∧ s.session.state ≠ .leaving) →
      (t.pubs.table[i]).rePend = (s.pubs.table[i]).rePend) := by
  dsimp only
  have written := write_of_inFlight (value := value) flight
  by_cases sends : writeSends s i = true
  · rw [writeEntry_of_flight sends flight, updPub_self, updPub_self, written]
    exact ⟨rfl, rfl, fun _ _ => rfl, fun silent => absurd sends ((not_writeSends_iff s i).mpr silent)⟩
  · rw [writeEntry_of_silent sends, updPub_self, written]
    exact ⟨rfl, rfl, fun mode state => absurd ((writeSends_iff s i).mpr ⟨mode, state⟩) sends, fun _ => rfl⟩

/-! ## WITHDRAW (R120) -/

/-- WITHDRAW in the port is taken by the Publication Unit (R120, R174). -/
theorem exec_withdraw_of_executes {s : State} {args : List Byte} (h : Executes s 0x52 args) :
    exec (.withdraw args) s = .next (answered (withdrawBody args s).1 (withdrawBody args s).2) :=
  congrArg Host.Outcome.next (takeCommand_executes (withdrawBody args) h)

theorem withdrawBody_of_above {b : Byte} (s : State) (above : 31 < b.toNat) :
    withdrawBody [b] s = refuseWith s .badArgument := by
  simp only [withdrawBody, indexOf_eq_none (Nat.succ_le_of_lt above)]

theorem withdrawBody_of_index {b : Byte} {i : PubIndex} (s : State) (index : b.toNat = i.val) :
    withdrawBody [b] s =
      match (s.pubs.table[i]).state with
      | .free => refuseWith s .notFound
      | .active => (withdrawAt s i, plain .ok)
      | .withdrawing => (s, plain .ok)
      | .yielded => (s.updPub i fun _ => PubEntry.initial, plain .ok) := by
  simp only [withdrawBody, indexOf_eq_some index] <;> rfl

theorem withdrawAt_of_idle {s : State} {i : PubIndex} (idle : (s.pubs.table[i]).inFlight = false) :
    withdrawAt s i = removeItem (s.updPub i fun _ => PubEntry.initial) (.update i) :=
  if_neg fun flight => Bool.false_ne_true (idle.symm.trans flight)

theorem withdrawAt_of_flight {s : State} {i : PubIndex} (flight : (s.pubs.table[i]).inFlight = true) :
    withdrawAt s i =
      s.updPub i fun e => { e.clearMarks with state := .withdrawing, periodicTimer := none, holdOff := none } :=
  if_pos flight

/-- WITHDRAW of an entry that is ACTIVE or YIELDED (R120). -/
theorem withdraw_entry {s : State} {b : Byte} {i : PubIndex} (executes : Executes s 0x52 [b]) (index : b.toNat = i.val)
    (held : (s.pubs.table[i]).state = .active ∨ (s.pubs.table[i]).state = .yielded) :
    ∃ t, exec (.withdraw [b]) s = .next t ∧
      t = answered { s with pubs := { s.pubs with table := t.pubs.table, items := t.pubs.items } } ⟨.ok, []⟩ ∧
      (∀ j : PubIndex, j ≠ i → t.pubs.table[j] = s.pubs.table[j]) ∧
      ((s.pubs.table[i]).state = .yielded → t.pubs.table[i] = PubEntry.initial ∧ t.pubs.items = s.pubs.items) ∧
      ((s.pubs.table[i]).state = .active → (s.pubs.table[i]).inFlight = false →
        t.pubs.table[i] = PubEntry.initial ∧
        t.pubs.items = s.pubs.items.filter fun it => it.kind != .update i) ∧
      ((s.pubs.table[i]).state = .active → (s.pubs.table[i]).inFlight = true →
        t.pubs.items = s.pubs.items ∧ t.pubs.table[i] = { s.pubs.table[i] with
          state := .withdrawing, periodicTimer := none, holdOff := none, writtenSinceLatch := false,
          rePend := false }) := by
  have next := exec_withdraw_of_executes executes
  rw [withdrawBody_of_index s index] at next
  obtain active | yielded := held
  · rw [active] at next ⊢
    cases flight : (s.pubs.table[i]).inFlight with
    | false =>
      dsimp only at next
      rw [withdrawAt_of_idle flight] at next
      exact ⟨_, next, rfl, fun j other => updPub_other s _ other, nofun, fun _ _ => ⟨updPub_self s i _, rfl⟩, fun _ => nofun⟩
    | true =>
      dsimp only at next
      rw [withdrawAt_of_flight flight] at next
      refine ⟨_, next, rfl, fun j other => updPub_other s _ other, nofun, fun _ => nofun, fun _ _ => ⟨rfl, ?_⟩⟩
      exact updPub_self s i _
  · rw [yielded] at next ⊢
    exact ⟨_, next, rfl, fun j other => updPub_other s _ other, fun _ => ⟨updPub_self s i _, rfl⟩, nofun, nofun⟩

/-- Settles O44: the refusals by index and state, and what `writeEntry` and `withdrawAt` leave. -/
theorem publicationsAreWrittenAndWithdrawn : Obligations.PublicationsAreWrittenAndWithdrawn := by
  refine ⟨fun s args executes wrong => ?wrong, fun s b value low executes => ⟨fun above => ?above, fun i index =>
      ⟨fun closed => ?closed, fun yielded => ?yielded, fun active => ?written⟩⟩,
    fun s b executes => ⟨fun above => ?withdrawAbove, fun i index => ⟨fun free => ?notFound, fun withdrawing => ?again,
      withdraw_entry executes index⟩⟩⟩
  case wrong =>
    rw [exec_writeValue_of_executes executes, writeValueBody_of_wrong s wrong]
    rfl
  case above =>
    rw [exec_writeValue_of_executes executes, writeValueBody_of_above low above]
    rfl
  case closed =>
    rw [exec_writeValue_of_executes executes, writeValueBody_of_index low index]
    obtain free | withdrawing := closed
    · rw [free]
      rfl
    · rw [withdrawing]
      rfl
  case yielded =>
    rw [exec_writeValue_of_executes executes, writeValueBody_of_index low index, yielded]
    rfl
  case written =>
    have next := exec_writeValue_of_executes executes
    rw [writeValueBody_of_index low index, active] at next
    dsimp only at next
    have changed := writeEntry_eq s i value
    have others := fun j : PubIndex => writeEntry_other (s := s) (i := i) (value := value) (j := j)
    have ofIdle := writeEntry_idle_entry value active
    have ofFlight := writeEntry_flight_entry (s := s) (i := i) value
    dsimp only at ofIdle ofFlight
    generalize writeEntry s i value = u at next changed others ofIdle ofFlight
    obtain ⟨booking, booked, settled⟩ := settleBooking_with (s := s) (u := u) (by rw [changed]; rfl) (by rw [changed]; rfl)
      (by rw [changed]; rfl)
    rw [booked] at next
    refine ⟨_, next, ?_, settled.answered _, others, ofIdle, ofFlight⟩
    rw [changed]
    rfl
  case withdrawAbove =>
    rw [exec_withdraw_of_executes executes, withdrawBody_of_above s above]
    rfl
  case notFound =>
    rw [exec_withdraw_of_executes executes, withdrawBody_of_index s index, free]
    rfl
  case again =>
    rw [exec_withdraw_of_executes executes, withdrawBody_of_index s index, withdrawing]
    rfl

end Sys2Proof.Machine
end

section
/-! CONFIGURE and JOIN (3.2, 3.3). -/

namespace Sys2Proof.Machine

/-! ## The configuration record (12.6) -/

theorem rateOf_isSome_iff (rate : Byte) : (rateOf rate).isSome = true ↔ rate.toNat ≤ 3 := by
  unfold rateOf
  split
  case h_5 not0 not1 not2 not3 =>
    have above : ¬ rate.toNat = 0 ∧ ¬ rate.toNat = 1 ∧ ¬ rate.toNat = 2 ∧ ¬ rate.toNat = 3 := ⟨not0, not1, not2, not3⟩
    exact ⟨nofun, fun low => by omega⟩
  all_goals exact ⟨fun _ => by omega, fun _ => rfl⟩

theorem indexOf_isSome_iff (n : Nat) (b : Byte) : (indexOf n b).isSome = true ↔ b.toNat < n := by
  unfold indexOf
  split
  · rename_i low
    simp [low]
  · rename_i high
    simp [high]

theorem indexOf_val {n : Nat} {b : Byte} {i : Fin n} (named : indexOf n b = some i) : i.val = b.toNat := by
  unfold indexOf at named
  split at named
  · cases named
    rfl
  · cases named

theorem eightNats_toList (bytes : Vector Byte 8) : eightNats bytes.toList = bytes.map BitVec.toNat := by
  refine Vector.ext fun i low => ?_
  unfold eightNats
  simp [List.getD_eq_getElem?_getD]

/-- The ranges of R41, one after the other. -/
theorem inRange_iff (r : Record) : r.inRange = true ↔
    r.unitTag ≠ 0 ∧ r.unitTag ≠ 0xFFFFFFFF ∧ (1 ≤ r.presenceInterval ∧ r.presenceInterval ≤ 255) ∧
    (2 ≤ r.silenceMultiple ∧ r.silenceMultiple ≤ 15) ∧ (1 ≤ r.listenMultiple ∧ r.listenMultiple ≤ 15) ∧
    (1 ≤ r.recallWait ∧ r.recallWait ≤ 255) ∧ (1 ≤ r.recallHoldOff ∧ r.recallHoldOff ≤ 255) ∧
    ∀ q : QueueNo, r.quotas[q] ≤ 128 ∧ (r.quotas[q] = 0 ∨ (1 ≤ r.watermarks[q] ∧ r.watermarks[q] ≤ r.quotas[q])) := by
  unfold Record.inRange
  rw [Bool.and_eq_true, List.all_eq_true]
  simp only [Bool.and_eq_true, Bool.or_eq_true, decide_eq_true_eq, bne_iff_ne, List.mem_finRange, forall_const, and_assoc]

/-- The record whose fields stand in the 27 bytes (12.6). -/
def givenRecord (station : Station) (rate : LineRate) (tag : UnitTag) (presence silence listen wait hold : Byte)
    (quotas marks : Vector Byte 8) : Record :=
  { station := station, rate := rate, unitTag := tag, presenceInterval := presence.toNat, silenceMultiple := silence.toNat,
    listenMultiple := listen.toNat, recallWait := wait.toNat, recallHoldOff := hold.toNat,
    quotas := quotas.map BitVec.toNat, watermarks := marks.map BitVec.toNat }

section Layout

variable (n rate t3 t2 t1 t0 presence silence listen wait hold : Byte) (quotas marks : Vector Byte 8)

theorem recordOf_layout :
    recordOf (n :: rate :: t3 :: t2 :: t1 :: t0 :: presence :: silence :: listen :: wait :: hold ::
      (quotas.toList ++ marks.toList)) =
    match indexOf 32 n, rateOf rate with
    | some station, some rate =>
      if (givenRecord station rate (t3 ++ t2 ++ t1 ++ t0) presence silence listen wait hold quotas marks).inRange then
        some (givenRecord station rate (t3 ++ t2 ++ t1 ++ t0) presence silence listen wait hold quotas marks)
      else none
    | _, _ => none := by
  have front : (quotas.toList ++ marks.toList).take 8 = quotas.toList := List.take_left' (Vector.length_toList)
  have back : (quotas.toList ++ marks.toList).drop 8 = marks.toList := List.drop_left' (Vector.length_toList)
  unfold recordOf givenRecord
  dsimp only
  rw [front, back, eightNats_toList, eightNats_toList] <;> rfl

variable {n rate t3 t2 t1 t0 presence silence listen wait hold quotas marks}

/-- The fields of an accepted record are those of the bytes. -/
theorem recordOf_fields {r : Record}
    (recorded : recordOf (n :: rate :: t3 :: t2 :: t1 :: t0 :: presence :: silence :: listen :: wait :: hold ::
      (quotas.toList ++ marks.toList)) = some r) :
    ∃ station lineRate, indexOf 32 n = some station ∧ rateOf rate = some lineRate ∧
      r = givenRecord station lineRate (t3 ++ t2 ++ t1 ++ t0) presence silence listen wait hold quotas marks := by
  rw [recordOf_layout] at recorded
  split at recorded
  · rename_i station lineRate number rated
    split at recorded
    · cases recorded
      exact ⟨station, lineRate, number, rated, rfl⟩
    · cases recorded
  · cases recorded

/-- A record is accepted exactly when its station, its rate and its other fields are in range (R41). -/
theorem recordOf_isSome_iff :
    (recordOf (n :: rate :: t3 :: t2 :: t1 :: t0 :: presence :: silence :: listen :: wait :: hold ::
      (quotas.toList ++ marks.toList))).isSome = true ↔
    n.toNat < 32 ∧ rate.toNat ≤ 3 ∧
      (givenRecord 0 .kbit250 (t3 ++ t2 ++ t1 ++ t0) presence silence listen wait hold quotas marks).inRange = true := by
  have any : ∀ a b, (givenRecord a b (t3 ++ t2 ++ t1 ++ t0) presence silence listen wait hold quotas marks).inRange =
      (givenRecord 0 .kbit250 (t3 ++ t2 ++ t1 ++ t0) presence silence listen wait hold quotas marks).inRange :=
    fun _ _ => rfl
  rw [recordOf_layout, ← indexOf_isSome_iff, ← rateOf_isSome_iff]
  cases number : indexOf 32 n with
  | none => exact ⟨nofun, fun h => absurd h.1 nofun⟩
  | some station =>
    cases rated : rateOf rate with
    | none => exact ⟨nofun, fun h => absurd h.2.1 nofun⟩
    | some lineRate =>
      dsimp only
      split
      · rename_i good
        exact ⟨fun _ => ⟨rfl, rfl, (any station lineRate).symm.trans good⟩, fun _ => rfl⟩
      · rename_i bad
        exact ⟨nofun, fun h => absurd ((any station lineRate).trans h.2.2) bad⟩

theorem givenRecord_inRange_iff (station : Station) (lineRate : LineRate) :
    (givenRecord station lineRate (t3 ++ t2 ++ t1 ++ t0) presence silence listen wait hold quotas marks).inRange = true ↔
      (t3 ++ t2 ++ t1 ++ t0).toNat ≠ 0 ∧ (t3 ++ t2 ++ t1 ++ t0).toNat ≠ 0xFFFFFFFF ∧
      1 ≤ presence.toNat ∧ 2 ≤ silence.toNat ∧ silence.toNat ≤ 15 ∧ 1 ≤ listen.toNat ∧ listen.toNat ≤ 15 ∧
      1 ≤ wait.toNat ∧ 1 ≤ hold.toNat ∧
      ∀ q : QueueNo, (quotas[q]).toNat ≤ 128 ∧
        ((quotas[q]).toNat = 0 ∨ (1 ≤ (marks[q]).toNat ∧ (marks[q]).toNat ≤ (quotas[q]).toNat)) := by
  have zero : (t3 ++ t2 ++ t1 ++ t0 : UnitTag) ≠ 0 ↔ (t3 ++ t2 ++ t1 ++ t0).toNat ≠ 0 :=
    not_congr ⟨fun same => by rw [same]; rfl, fun same => BitVec.eq_of_toNat_eq same⟩
  have full : (t3 ++ t2 ++ t1 ++ t0 : UnitTag) ≠ 0xFFFFFFFF ↔ (t3 ++ t2 ++ t1 ++ t0).toNat ≠ 0xFFFFFFFF :=
    not_congr ⟨fun same => by rw [same]; rfl, fun same => BitVec.eq_of_toNat_eq same⟩
  have quota : ∀ q : QueueNo, (quotas.map BitVec.toNat)[q] = (quotas[q]).toNat := fun q => Vector.getElem_map ..
  have mark : ∀ q : QueueNo, (marks.map BitVec.toNat)[q] = (marks[q]).toNat := fun q => Vector.getElem_map ..
  have byte : ∀ b : Byte, b.toNat ≤ 255 := fun b => Nat.le_of_lt_succ b.isLt
  rw [inRange_iff]
  unfold givenRecord
  dsimp only
  simp only [zero, full, quota, mark, byte, and_true, and_assoc]

end Layout

/-! ## CONFIGURE (R41) -/

/-- CONFIGURE in the port is taken by the Session Controller (R41, R174). -/
theorem exec_configure_of_executes {s : State} {args : List Byte} (h : Executes s 0x01 args) :
    exec (.configure args) s = .next (answered (configureBody args s).1 (configureBody args s).2) :=
  congrArg Host.Outcome.next (takeCommand_executes (configureBody args) h)

theorem configureBody_of_online {s : State} {args : List Byte} (whole : args.length = 27)
    (online : s.session.state ≠ .offline) : configureBody args s = refuseWith s .wrongState :=
  (if_neg (not_not.mpr whole)).trans (if_pos online)

theorem configureBody_of_offline {s : State} {args : List Byte} (whole : args.length = 27)
    (offline : s.session.state = .offline) : configureBody args s =
      match recordOf args with
      | none => refuseWith s .badArgument
      | some r => (emptyQueues (s.setSession { s.session with record := some r }), plain .ok) :=
  (if_neg (not_not.mpr whole)).trans (if_neg (not_not.mpr offline))

/-- Settles O46: the record's bytes are laid out by `recordOf_layout`, and CONFIGURE installs what `recordOf` gives. -/
theorem configureInstallsTheRecord : Obligations.ConfigureInstallsTheRecord := by
  refine ⟨?layout, ⟨rfl, rfl, rfl, rfl⟩, fun s args whole executes =>
    ⟨fun r offline recorded => ?installed, fun offline bad => ?bad, fun online => ?online⟩⟩
  case layout =>
    rintro n rate t3 t2 t1 t0 presence silence listen wait hold quotas marks args rfl
    refine ⟨by simp, recordOf_isSome_iff.trans ?_, fun r recorded => ?_⟩
    · rw [givenRecord_inRange_iff, Nat.lt_iff_add_one_le, Nat.add_one_le_add_one_iff]
    · obtain ⟨station, lineRate, number, rated, rfl⟩ := recordOf_fields recorded
      exact ⟨indexOf_val number, rated, rfl, rfl, rfl, rfl, rfl, rfl,
        fun q => ⟨Vector.getElem_map .., Vector.getElem_map ..⟩⟩
  case installed =>
    rw [exec_configure_of_executes executes, configureBody_of_offline whole offline, recorded]
    rfl
  case bad =>
    rw [exec_configure_of_executes executes, configureBody_of_offline whole offline, bad]
    rfl
  case online =>
    rw [exec_configure_of_executes executes, configureBody_of_online whole online]
    rfl

/-! ## JOIN (R43) -/

/-- JOIN in the port is taken by the Session Controller (R43, R174). -/
theorem exec_join_of_executes {s : State} {args : List Byte} (h : Executes s 0x02 args) :
    exec (.join args) s = .next (answered (joinBody args s).1 (joinBody args s).2) :=
  congrArg Host.Outcome.next (takeCommand_executes (joinBody args) h)

theorem joinBody_of_online {s : State} (online : s.session.state ≠ .offline) : joinBody [] s = refuseWith s .wrongState :=
  if_pos online

theorem joinBody_of_offline {s : State} (offline : s.session.state = .offline) : joinBody [] s =
    match s.session.record with
    | none => refuseWith s .notConfigured
    | some r => (joinWith r s, plain .pending) :=
  if_neg (not_not.mpr offline)

/-- Settles O47: an accepted JOIN is `joinWith`. -/
theorem joinStartsListening : Obligations.JoinStartsListening := by
  refine fun s executes => ⟨fun r offline recorded => ?joined, fun offline absent => ?notConfigured, fun online => ?online⟩
  case joined =>
    have next := exec_join_of_executes executes
    rw [joinBody_of_offline offline, recorded] at next
    refine ⟨_, next, rfl, rfl, rfl, rfl, rfl, rfl, rfl, fun c => ?_, rfl, rfl, rfl, rfl, upd_getElem_self _ _ _,
      fun n other => upd_getElem_of_ne _ _ other.symm⟩
    exact Vector.getElem_replicate _
  case notConfigured =>
    rw [exec_join_of_executes executes, joinBody_of_offline offline, absent]
    rfl
  case online =>
    rw [exec_join_of_executes executes, joinBody_of_online online]
    rfl

end Sys2Proof.Machine
end

section
/-! Notices posted by an event, GAP_END, SLOT_CYCLE_START and BLOCKED_LINE_EVENT (chapter 2). -/

namespace Sys2Proof.Machine

/-! ## Posting reads the clock and the port, and writes the port -/

theorem post_of_port {s u : State} (port : u.port = s.port) (clock : u.line.clock = s.line.clock) (n : Notice) :
    post u n = u.setPort (post s n).port := by
  unfold post
  rw [port, clock]
  split
  · rfl
  · rfl

theorem postAll_of_port {s u : State} (port : u.port = s.port) (clock : u.line.clock = s.line.clock) (ns : List Notice) :
    postAll u ns = u.setPort (postAll s ns).port := by
  induction ns generalizing s u with
  | nil => rw [postAll_nil, postAll_nil, ← port]; rfl
  | cons n ns ih =>
    rw [postAll_cons, postAll_cons, ih (s := post s n) (u := post u n) ?_ ?_, post_of_port port clock]
    · rfl
    · rw [post_of_port port clock]
      rfl
    · rw [post_line, post_line, clock]

/-- An event that ends with its notices and the booking settled, seen from `s` or, at the end of an attempt, from `r`. -/
theorem settleBooking_postAll {s r u : State} (port : u.port = s.port) (clock : u.line.clock = s.line.clock)
    (booking : u.access.booking = r.access.booking) (flight : u.access.inFlight = r.access.inFlight)
    (slotTime : u.access.slotTime = r.access.slotTime) (ns : List Notice) :
    ∃ b, settleBooking (postAll u ns) =
        { u with access := { u.access with booking := b }, port := (postAll s ns).port } ∧
      SettledBooking r { u with access := { u.access with booking := b }, port := (postAll s ns).port } := by
  rw [postAll_of_port port clock]
  exact settleBooking_with (s := r) (u := u.setPort (postAll s ns).port) booking flight slotTime

/-! ## GAP_END and SLOT_CYCLE_START (R5, R19, R24) -/

/-- Permission to begin an attempt (R23). -/
theorem permission_iff (s : State) : permission s = true ↔ s.access.standing ≠ .quiet ∧ (s.session.state = .member ∨
    (s.session.state = .claiming ∧ ∃ it rest, s.pubs.items = it :: rest ∧ it.kind = .claim)) := by
  have claim : ((s.pubs.items.head?).any fun it => it.kind == .claim) = true ↔
      ∃ it rest, s.pubs.items = it :: rest ∧ it.kind = .claim := by
    cases s.pubs.items with
    | nil => simp
    | cons it rest => simp
  unfold permission
  rw [Bool.and_eq_true, bne_iff_ne, and_comm]
  refine and_congr_right fun _ => ?_
  rw [← claim]
  cases s.session.state <;> simp

theorem bookAtCycle_of_head {s : State} {it : Item} {rest : List Item} (unbooked : s.access.booking = none)
    (permitted : permission s = true) (head : s.pubs.items = it :: rest) :
    bookAtCycle s = s.setAccess { s.access with booking := some (ownSlot s it.cls) } := by
  unfold bookAtCycle
  rw [unbooked, permitted, head] <;> rfl

theorem bookAtCycle_of_nothing {s : State} (nothing : s.pubs.items = [] ∨ permission s = false) : bookAtCycle s = s := by
  unfold bookAtCycle
  split
  · rename_i permitted head
    obtain empty | refused := nothing
    · rw [empty] at head
      cases head
    · rw [refused] at permitted
      cases permitted
  · rfl

/-- What is booked at a gap end or at the start of a cycle (R20, R24). -/
theorem bookAtCycle_booking (s : State) (unbooked : s.access.booking = none) :
    (∀ it rest, s.pubs.items = it :: rest → permission s = true →
      ∃ b, (bookAtCycle s).access.booking = some b ∧
        b.val = it.cls.val * 32 + ((ownNumber s).val + 63 - (s.access.bases[it.cls]).val) % 32) ∧
    (s.pubs.items = [] ∨ permission s = false → (bookAtCycle s).access.booking = none) := by
  refine ⟨fun it rest head permitted => ⟨ownSlot s it.cls, ?_, ownSlot_val s it.cls⟩, fun nothing => ?_⟩
  · rw [bookAtCycle_of_head unbooked permitted head]
    rfl
  · rw [bookAtCycle_of_nothing nothing]
    exact unbooked

theorem exec_gapEnd_of_gapCanEnd {s : State} (running : s.held = false) (can : gapCanEnd s = true) :
    exec .gapEnd s = .next (gapEnd s) :=
  congrArg Host.Outcome.next ((whenRunning_running s _ running).trans (if_pos can))

theorem exec_gapEnd_of_not {s : State} (running : s.held = false) (cannot : ¬ gapCanEnd s = true) : exec .gapEnd s = .next s :=
  congrArg Host.Outcome.next ((whenRunning_running s _ running).trans (if_neg cannot))

theorem exec_slotCycleStart_of_counting {s : State} (running : s.held = false) (counting : s.access.slotTime.isSome = true) :
    exec .slotCycleStart s = .next (slotCycleStart s) :=
  congrArg Host.Outcome.next ((whenRunning_running s _ running).trans (if_pos counting))

theorem gapEnd_eq (s : State) : gapEnd s = { s with
    line := { s.line with receive := .betweenFrames, gap := none, blocked := none },
    access := { s.access with slotTime := some 0, booking := (gapEnd s).access.booking } } := by
  unfold gapEnd
  rw [bookAtCycle_eq]
  rfl

theorem slotCycleStart_eq (s : State) : slotCycleStart s =
    { s with access := { s.access with slotTime := some 0, booking := (slotCycleStart s).access.booking } } := by
  unfold slotCycleStart
  rw [bookAtCycle_eq]
  rfl

/-- Settles O8: both events start the count of slots and book by `bookAtCycle`. -/
theorem gapEndAndCycleStartBookTheHead : Obligations.GapEndAndCycleStartBookTheHead := by
  refine ⟨fun s => ⟨permission_iff s, fun rate => ?_, fun rate => ?_, fun rate => ?_, fun rate => ?_⟩,
    fun s running => ⟨fun unbooked => ⟨fun awaits idle off free count => ?gap, fun counting => ?cycle⟩, fun active => ?active⟩⟩
  case gap =>
    have can : gapCanEnd s = true := (gapCanEnd_iff s).mpr ⟨awaits, idle, off, free, count⟩
    exact ⟨_, exec_gapEnd_of_gapCanEnd running can, gapEnd_eq s, bookAtCycle_booking ((s.setLine { s.line with
      receive := .betweenFrames, gap := none, blocked := none }).setAccess { s.access with slotTime := some 0 }) unbooked⟩
  case cycle =>
    exact ⟨_, exec_slotCycleStart_of_counting running counting, slotCycleStart_eq s,
      bookAtCycle_booking (s.setAccess { s.access with slotTime := some 0 }) unbooked⟩
  case active =>
    refine exec_gapEnd_of_not running fun can => ?_
    obtain ⟨-, idle, -⟩ := (gapCanEnd_iff s).mp can
    rw [active] at idle
    cases idle
  all_goals
    unfold lineBit
    rw [rate]
    rfl

/-! ## BLOCKED_LINE_EVENT (R7, R35) -/

theorem exec_blockedLineEvent_of_measure {s : State} {m : BlockedMeasure} (running : s.held = false)
    (measured : s.line.blocked = some m) :
    exec .blockedLineEvent s = .next (if m.reported then s else blockedLine m s) := by
  refine congrArg Host.Outcome.next ((whenRunning_running s _ running).trans ?_)
  simp only [measured]

theorem raiseScore_fst (s : State) (n : Nat) : (raiseScore s n).1 = s.setAccess { s.access with
    score := min 255 (s.access.score + n), standing := nextStanding s.access.standing (min 255 (s.access.score + n)) } := rfl

theorem raiseScore_snd (s : State) (n : Nat) : (raiseScore s n).2 =
    standingNotices s.access.standing (nextStanding s.access.standing (min 255 (s.access.score + n))) := rfl

theorem blockedLine_eq (m : BlockedMeasure) (s : State) : blockedLine m s =
    { s with
      line := { s.line with blocked := some { m with reported := true } },
      access := { s.access with
        booking := none, score := min 255 (s.access.score + 8),
        standing := nextStanding s.access.standing (min 255 (s.access.score + 8)) },
      port := (postAll s (.lineBlocked :: standingNotices s.access.standing
        (nextStanding s.access.standing (min 255 (s.access.score + 8))))).port } := by
  unfold blockedLine
  dsimp only
  rw [done_def, andThen_fst, andThen_snd, raiseScore_fst, raiseScore_snd]
  rw [postAll_of_port (s := s) (by rfl) (by rfl)]
  rfl

/-- Settles O14. -/
theorem blockedLineScoresOncePerPeriod : Obligations.BlockedLineScoresOncePerPeriod := by
  refine fun s m running measured => ⟨fun unreported => ?first, fun reported => ?again⟩
  case first =>
    refine ⟨blockedLine m s, ?_, ?_⟩
    · rw [exec_blockedLineEvent_of_measure running measured, unreported]
      rfl
    · rw [blockedLine_eq]
      exact ⟨rfl, rfl, nextStanding_row _ _, rfl⟩
  case again =>
    rw [exec_blockedLineEvent_of_measure running measured, reported]
    rfl

end Sys2Proof.Machine
end

section
/-! FRESHNESS_DEADLINE_EXPIRY and SILENCE_DEADLINE_EXPIRY (R59, R108 to R110). -/

namespace Sys2Proof.Machine

/-! ## The recall requests of stale slots (R110) -/

theorem mem_staleTopics {s : State} {ks : List SlotNo} {topic : Topic} : topic ∈ staleTopics s ks ↔
    ∃ k ∈ ks, ∃ i : SubIndex, ((s.accept.table[i]).state = .active ∧ (s.accept.table[i]).recallOption = true ∧
      (s.accept.table[i]).target = .slot k) ∧ (s.accept.table[i]).value = topic := by
  unfold staleTopics
  simp only [List.mem_flatMap, List.mem_map, List.mem_filter, List.mem_finRange, true_and, decide_eq_true_eq]

theorem staleTopics_cons (s : State) (k : SlotNo) (ks : List SlotNo) :
    staleTopics s (k :: ks) = staleTopics s [k] ++ staleTopics s ks := by
  unfold staleTopics
  rw [List.flatMap_cons, List.flatMap_cons, List.flatMap_nil, List.append_nil]

theorem staleTopics_of_accept {s t : State} (same : t.accept = s.accept) (ks : List SlotNo) :
    staleTopics t ks = staleTopics s ks := by
  unfold staleTopics
  rw [same]

/-- The requests for the topics, of origin STALE, one at a time (R110). -/
def requestStale (s : State) (topics : List Topic) : State := topics.foldl (fun s topic => requestRecall s topic .stale) s

theorem requestStale_cons (s : State) (topic : Topic) (topics : List Topic) :
    requestStale s (topic :: topics) = requestStale (requestRecall s topic .stale) topics := rfl

theorem requestStale_append (s : State) (xs ys : List Topic) :
    requestStale s (xs ++ ys) = requestStale (requestStale s xs) ys := List.foldl_append ..

theorem requestStale_recalled (s : State) (topics : List Topic) : Recalled s (requestStale s topics) topics .stale :=
  requestRecalls_recalled s topics .stale

theorem requestStale_eq (s : State) (topics : List Topic) : requestStale s topics =
    (s.setCont (requestStale s topics).cont).setPubs (requestStale s topics).pubs := by
  induction topics generalizing s with
  | nil => rfl
  | cons topic topics ih => exact setContPubs_trans (requestRecall_eq s topic .stale) (ih _)

/-- A request neither reads nor changes the slots. -/
theorem requestRecall_setStore (s : State) (m : MessageStore) (topic : Topic) (o : RecallOrigin) :
    requestRecall (s.setStore m) topic o = (requestRecall s topic o).setStore m := by
  have owns : ownsTopic (s.setStore m) topic = ownsTopic s topic := rfl
  have recalled : recallAt (s.setStore m) topic = recallAt s topic := rfl
  have free : freeRecall (s.setStore m) = freeRecall s := rfl
  unfold requestRecall
  rw [owns, recalled, free, setStore_session, setStore_access]
  split
  · cases freeRecall s <;> rfl
  · rfl

theorem requestStale_setStore (s : State) (m : MessageStore) (topics : List Topic) :
    requestStale (s.setStore m) topics = (requestStale s topics).setStore m := by
  induction topics generalizing s with
  | nil => rfl
  | cons topic topics ih => rw [requestStale_cons, requestStale_cons, requestRecall_setStore, ih]

/-- Requests leave the publication table alone (R147). -/
theorem Recalled.pubs_eq {s t : State} {topics : List Topic} {o : RecallOrigin} (h : Recalled s t topics o) :
    t.pubs = { s.pubs with items := t.pubs.items, placements := t.pubs.placements } := by
  obtain ⟨-, -, table, -⟩ := h
  exact congrArg (fun table => { t.pubs with table := table }) table

/-- Requests leave the sequence tracker alone (R147). -/
theorem Recalled.cont_eq {s t : State} {topics : List Topic} {o : RecallOrigin} (h : Recalled s t topics o) :
    t.cont = { s.cont with recalls := t.cont.recalls } := by
  obtain ⟨-, tracker, -⟩ := h
  exact congrArg (fun tracker => { t.cont with tracker := tracker }) tracker

/-- Requests leave the permission as it is: only CLAIMING looks at the list, and it asks for nothing. -/
theorem Recalled.permission {s t : State} {topics : List Topic} {o : RecallOrigin} (h : Recalled s t topics o)
    (session : t.session = s.session) (standing : t.access.standing = s.access.standing) :
    permission t = permission s := by
  by_cases member : s.session.state = .member
  · unfold Machine.permission
    rw [session, standing, member]
  · obtain ⟨-, pubs⟩ := h.1 (.inl member)
    unfold Machine.permission
    rw [session, standing, pubs]

/-! ## One slot goes STALE (R108) -/

/-- The slot goes STALE, and then the recalls are requested. -/
theorem makeStale_eq (s : State) (k : SlotNo) (reason : StaleReason) :
    makeStale s k reason =
      ((requestStale s (staleTopics s [k])).setStore { s.store with slots := upd s.store.slots k fun x => x.goStale reason },
        [.slotStale k reason]) := by
  unfold makeStale
  rw [staleRequests_eq_foldl]
  exact congrArg (·, [Notice.slotStale k reason]) (requestStale_setStore s _ _)

/-- FRESHNESS_DEADLINE_EXPIRY while the deadline runs (R108). -/
theorem exec_freshnessDeadlineExpiry_of_fresh {s : State} {k : SlotNo} (running : s.held = false)
    (fresh : (s.store.slots[k]).state = .fresh) (deadline : (s.store.slots[k]).deadline.isSome = true) :
    exec (.freshnessDeadlineExpiry k) s = .next (settleBooking (makeStale s k .freshness).done) :=
  congrArg Host.Outcome.next ((whenRunning_running s _ running).trans (if_pos ⟨fresh, deadline⟩))

/-- A booking that has been settled stays as it was where no slots are counted and none is dropped (R25, R27). -/
theorem SettledBooking.kept {s t : State} (h : SettledBooking s t) (permitted : permission t = permission s)
    (standing : s.access.booking = none ∨ permission s = true) (uncounted : s.access.slotTime = none) :
    t.access.booking = s.access.booking := by
  obtain ⟨dropped, kept⟩ := h
  cases allowed : permission s with
  | true => exact (kept (permitted.trans allowed)).1 (.inr (.inr (.inl uncounted)))
  | false =>
    have unbooked := standing.resolve_right fun yes => Bool.false_ne_true (allowed.symm.trans yes)
    rw [dropped (permitted.trans allowed), unbooked]

/-- Settles O26: one slot goes STALE, and the requests of R110 are `requestStale`. -/
theorem freshnessExpiryMakesTheSlotStale : Obligations.FreshnessExpiryMakesTheSlotStale := by
  intro s k running fresh deadline
  have next := exec_freshnessDeadlineExpiry_of_fresh running fresh deadline
  have recalled := requestStale_recalled s (staleTopics s [k])
  have changed := requestStale_eq s (staleTopics s [k])
  rw [makeStale_eq, done_def] at next
  generalize requestStale s (staleTopics s [k]) = u at next recalled changed
  obtain ⟨cont, pubs, rfl⟩ : ∃ cont pubs, u = (s.setCont cont).setPubs pubs := ⟨_, _, changed⟩
  have requests := recalled
  obtain ⟨same, -, -, -, listed, added, complete⟩ := requests
  obtain ⟨b, booked, settled⟩ := settleBooking_postAll (s := s) (r := s)
    (u := ((s.setCont cont).setPubs pubs).setStore
      { s.store with slots := upd s.store.slots k fun x => x.goStale .freshness })
    rfl rfl rfl rfl rfl [.slotStale k .freshness]
  rw [booked] at next
  refine ⟨_, next, ?_, upd_getElem_self _ _ _, fun j other => upd_getElem_of_ne _ _ other.symm, rfl, rfl, rfl, rfl, rfl, rfl,
    fun standing uncounted => settled.kept (recalled.permission rfl rfl) standing uncounted, settled, recalled,
    fun quiet => same ?_, fun i active option target member normal foreign => ?_, fun p busy => listed p (.inl busy),
    fun p free busy => ?_⟩
  · exact congrArg₂ (fun cont pubs => ({ s with
        access := { s.access with booking := b },
        store := { s.store with slots := upd s.store.slots k fun x => x.goStale .freshness },
        pubs := pubs, cont := cont, port := (postAll s [.slotStale k .freshness]).port } : State))
      recalled.cont_eq recalled.pubs_eq
  · obtain noEntry | outside | impaired := quiet
    · refine .inr (.inr (List.eq_nil_iff_forall_not_mem.mpr fun topic listed => ?_))
      obtain ⟨k', only, i, entry, -⟩ := mem_staleTopics.mp listed
      obtain rfl := List.mem_singleton.mp only
      exact noEntry i entry
    · exact .inl outside
    · exact .inr (.inl impaired)
  · refine (complete member normal _ (mem_staleTopics.mpr ⟨k, List.mem_singleton_self k, i, ⟨active, option, target⟩, rfl⟩)
      fun ⟨j, held, topic⟩ => foreign j held topic).imp_right fun full p => (full p).1
  · obtain ⟨entry, -, -, -, -, item⟩ := added p free busy
    obtain ⟨it, listed, kind, cls, attempts, -⟩ := item
    exact ⟨entry, it, listed, kind, cls, attempts⟩

/-! ## Every slot of a silent peer goes STALE (R109) -/

/-- The slots `ks` go STALE. -/
def staleSlots (v : Vector Slot 64) (ks : List SlotNo) : Vector Slot 64 :=
  ks.foldl (fun v k => upd v k fun x => x.goStale .peerSilent) v

theorem staleSlots_cons (v : Vector Slot 64) (k : SlotNo) (ks : List SlotNo) :
    staleSlots v (k :: ks) = staleSlots (upd v k fun x => x.goStale .peerSilent) ks := rfl

theorem staleSlots_of_not_mem {v : Vector Slot 64} {ks : List SlotNo} {j : SlotNo} (other : j ∉ ks) :
    (staleSlots v ks)[j] = v[j] := by
  induction ks generalizing v with
  | nil => rfl
  | cons k ks ih =>
    rw [List.mem_cons, not_or] at other
    rw [staleSlots_cons, ih other.2, upd_getElem_of_ne _ _ (Ne.symm other.1)]

theorem staleSlots_of_mem {v : Vector Slot 64} {ks : List SlotNo} {j : SlotNo} (distinct : ks.Nodup) (listed : j ∈ ks) :
    (staleSlots v ks)[j] = v[j].goStale .peerSilent := by
  induction ks generalizing v with
  | nil => cases listed
  | cons k ks ih =>
    obtain ⟨new, distinct⟩ := List.nodup_cons.mp distinct
    rw [staleSlots_cons]
    obtain rfl | later := List.mem_cons.mp listed
    · rw [staleSlots_of_not_mem new, upd_getElem_self]
    · have other : k ≠ j := fun same => new (same ▸ later)
      rw [ih distinct later, upd_getElem_of_ne _ _ other]

/-- The FRESH slots of a source among `ks` (R109). -/
def freshOf (v : Vector Slot 64) (source : Station) (ks : List SlotNo) : List SlotNo :=
  ks.filter fun k => decide ((v[k]).state = .fresh ∧ (v[k]).contents.source = source)

theorem mem_freshOf {v : Vector Slot 64} {source : Station} {ks : List SlotNo} {k : SlotNo} :
    k ∈ freshOf v source ks ↔ k ∈ ks ∧ (v[k]).state = .fresh ∧ (v[k]).contents.source = source := by
  unfold freshOf
  rw [List.mem_filter, decide_eq_true_iff]

theorem freshOf_upd {v : Vector Slot 64} {source : Station} {ks : List SlotNo} {k : SlotNo} (other : k ∉ ks)
    (g : Slot → Slot) : freshOf (upd v k g) source ks = freshOf v source ks := by
  refine List.filter_congr fun j listed => ?_
  have ne : k ≠ j := fun same => other (same ▸ listed)
  rw [upd_getElem_of_ne v g ne]

/-- The slots visited go STALE where they are FRESH and of the source, with their notices, and their topics are requested
in order (R109, R110). -/
theorem silenceSlots_eq (source : Station) (ks : List SlotNo) (distinct : ks.Nodup) (p : Posting) :
    ks.foldl (silenceSlot source) p =
      ((requestStale p.1 (staleTopics p.1 (freshOf p.1.store.slots source ks))).setStore
          { p.1.store with slots := staleSlots p.1.store.slots (freshOf p.1.store.slots source ks) },
        p.2 ++ (freshOf p.1.store.slots source ks).map fun k => Notice.slotStale k .peerSilent) := by
  induction ks generalizing p with
  | nil => rw [show freshOf p.1.store.slots source [] = [] from rfl, List.map_nil, List.append_nil]; rfl
  | cons k ks ih =>
    obtain ⟨new, distinct⟩ := List.nodup_cons.mp distinct
    rw [List.foldl_cons, ih distinct]
    by_cases fresh : (p.1.store.slots[k]).state = .fresh ∧ (p.1.store.slots[k]).contents.source = source
    · have visited : silenceSlot source p k =
          ((requestStale p.1 (staleTopics p.1 [k])).setStore
            { p.1.store with slots := upd p.1.store.slots k fun x => x.goStale .peerSilent },
          p.2 ++ [.slotStale k .peerSilent]) := by
        refine (if_pos fresh : silenceSlot source p k = p.andThen fun s => makeStale s k .peerSilent).trans ?_
        unfold Posting.andThen
        dsimp only
        rw [makeStale_eq]
      have listed : freshOf p.1.store.slots source (k :: ks) = k :: freshOf p.1.store.slots source ks :=
        List.filter_cons_of_pos (decide_eq_true fresh)
      have table : (requestStale p.1 (staleTopics p.1 [k])).accept = p.1.accept := by rw [requestStale_eq]; rfl
      rw [visited, listed, staleTopics_cons p.1 k (freshOf p.1.store.slots source ks), requestStale_append, staleSlots_cons]
      generalize requestStale p.1 (staleTopics p.1 [k]) = u at table
      dsimp only
      rw [setStore_store]
      dsimp only
      rw [freshOf_upd new, requestStale_setStore, staleTopics_of_accept ((setStore_accept _ _).trans table), List.map_cons,
        List.append_assoc]
      rfl
    · have visited : silenceSlot source p k = p := if_neg fresh
      have unlisted : freshOf p.1.store.slots source (k :: ks) = freshOf p.1.store.slots source ks :=
        List.filter_cons_of_neg fun yes => fresh (of_decide_eq_true yes)
      rw [visited, unlisted]

/-- The peer is SILENT, its FRESH slots are STALE, and the topics they need are requested (R59, R109, R110). -/
theorem peerFallsSilent_eq (x : Station) (s : State) :
    peerFallsSilent x s =
      ((requestStale (s.updRoster x fun e => { e with state := .silent, deadline := none })
          (staleTopics s (freshOf s.store.slots x (List.finRange 64)))).setStore
          { s.store with slots := staleSlots s.store.slots (freshOf s.store.slots x (List.finRange 64)) },
        .peerSilent x :: (freshOf s.store.slots x (List.finRange 64)).map fun k => Notice.slotStale k .peerSilent) := by
  unfold peerFallsSilent Posting.andThen
  dsimp only
  rw [staleBySilence_eq_foldl, silenceSlots_eq x _ (List.nodup_finRange 64)]
  rfl

/-- Notices stay in front of those posted later. -/
theorem postAll_prefix (s : State) (ns : List Notice) : s.port.notices <+: (postAll s ns).port.notices := by
  induction ns generalizing s with
  | nil => exact List.prefix_rfl
  | cons n ns ih =>
    refine List.IsPrefix.trans ?_ (ih (post s n))
    unfold post
    split
    · exact List.prefix_append _ _
    · exact List.prefix_rfl

/-- The first notice posted to an empty queue is its head. -/
theorem postAll_head (s : State) (n : Notice) (ns : List Notice) (empty : s.port.notices = []) :
    (postAll s (n :: ns)).port.notices.head? = some { notice := n, stamp := s.line.clock } := by
  have first : (post s n).port.notices = [{ notice := n, stamp := s.line.clock }] := by
    unfold post
    rw [empty]
    rfl
  obtain ⟨rest, behind⟩ := postAll_prefix (post s n) ns
  rw [postAll_cons, ← behind, first]
  rfl

/-- SILENCE_DEADLINE_EXPIRY of a PRESENT peer (R59). -/
theorem exec_silenceDeadlineExpiry_of_present {s : State} {x : Station} (running : s.held = false)
    (present : (s.roster[x]).state = .present) (deadline : (s.roster[x]).deadline.isSome = true) :
    exec (.silenceDeadlineExpiry x) s = .next (settleBooking (peerFallsSilent x s).done) :=
  congrArg Host.Outcome.next ((whenRunning_running s _ running).trans (if_pos ⟨present, deadline⟩))

/-- Settles O25: the slots of the peer go STALE one by one, and the requests of R110 are `requestStale`. -/
theorem silentPeerMakesItsSlotsStale : Obligations.SilentPeerMakesItsSlotsStale := by
  intro s x running present deadline
  have next := exec_silenceDeadlineExpiry_of_present running present deadline
  have fresh := fun k : SlotNo => mem_freshOf (v := s.store.slots) (source := x) (ks := List.finRange 64) (k := k)
  have distinct : (freshOf s.store.slots x (List.finRange 64)).Nodup := (List.nodup_finRange 64).filter _
  have whole : freshOf s.store.slots x (List.finRange 64) = (List.finRange 64).filter fun k =>
      decide ((s.store.slots[k]).state = .fresh ∧ (s.store.slots[k]).contents.source = x) := rfl
  have recalled := requestStale_recalled (s.updRoster x fun e => { e with state := .silent, deadline := none })
    (staleTopics s (freshOf s.store.slots x (List.finRange 64)))
  have changed := requestStale_eq (s.updRoster x fun e => { e with state := .silent, deadline := none })
    (staleTopics s (freshOf s.store.slots x (List.finRange 64)))
  rw [peerFallsSilent_eq, done_def] at next
  generalize freshOf s.store.slots x (List.finRange 64) = ks at next fresh distinct whole recalled changed
  generalize requestStale _ _ = u at next recalled changed
  obtain ⟨cont, pubs, rfl⟩ : ∃ cont pubs,
      u = ((s.updRoster x fun e => { e with state := .silent, deadline := none }).setCont cont).setPubs pubs :=
    ⟨_, _, changed⟩
  obtain ⟨b, booked, settled⟩ := settleBooking_postAll (s := s) (r := s)
    (u := (((s.updRoster x fun e => { e with state := .silent, deadline := none }).setCont cont).setPubs pubs).setStore
      { s.store with slots := staleSlots s.store.slots ks })
    rfl rfl rfl rfl rfl (.peerSilent x :: ks.map fun k => .slotStale k .peerSilent)
  dsimp only at next
  rw [booked] at next
  refine ⟨_, next, ?_, upd_getElem_self _ _ _, fun n other => upd_getElem_of_ne _ _ other.symm, fun k isFresh source => ?_,
    fun k other => ?_, rfl, rfl, rfl, rfl, fun empty => postAll_head s _ _ empty, settled, fun list same => ?_⟩
  · exact congrArg₂ (fun cont pubs => ({ s with
        access := { s.access with booking := b },
        roster := upd s.roster x fun e => { e with state := .silent, deadline := none },
        store := { s.store with slots := staleSlots s.store.slots ks },
        pubs := pubs, cont := cont,
        port := (postAll s (.peerSilent x :: ks.map fun k => .slotStale k .peerSilent)).port } : State))
      recalled.cont_eq recalled.pubs_eq
  · exact staleSlots_of_mem distinct ((fresh k).mpr ⟨List.mem_finRange k, isFresh, source⟩)
  · refine staleSlots_of_not_mem fun listed => ?_
    obtain ⟨-, isFresh, source⟩ := (fresh k).mp listed
    exact other.elim (fun stale => stale isFresh) fun foreign => foreign source
  · obtain rfl : list = ks := same.trans whole.symm
    exact ⟨rfl, recalled⟩

end Sys2Proof.Machine
end

section
/-! BOOKED_SLOT_START (R26, R28): the attempt that starts for the head, and the frame it latches. -/

namespace Sys2Proof.Machine

/-! ## How long a frame is -/

theorem characterLevels_length (b : Byte) : (characterLevels b).length = 10 := by
  unfold characterLevels
  simp [bitsOfByte]

theorem charactersLevels_length (bs : List Byte) : (charactersLevels bs).length = 10 * bs.length := by
  induction bs with
  | nil => rfl
  | cons b bs ih =>
    have cons : charactersLevels (b :: bs) = characterLevels b ++ charactersLevels bs := List.flatMap_cons ..
    rw [cons, List.length_append, characterLevels_length, ih, List.length_cons]
    omega

theorem withCheck_length (covered : List Byte) : (withCheck covered).length = covered.length + 2 := by
  unfold withCheck
  simp [bytes16]

theorem frameLevels_length (bs : List Byte) : (frameLevels bs).length = 8 + 10 * bs.length := by
  unfold frameLevels
  rw [List.length_append, List.length_append, List.length_replicate, List.length_replicate, charactersLevels_length]

/-! ## The frame that is latched (R45, R50, R125, R148, R158) -/

theorem ownNumber_of_record {s : State} {r : Record} (recorded : s.session.record = some r) : ownNumber s = r.station := by
  unfold ownNumber
  rw [recorded]

theorem presenceFrame_of_record {s : State} {r : Record} (recorded : s.session.record = some r) (defence : Bool) :
    latchedFrame s (.presence defence) =
      { cls := if defence then 0 else 7, source := r.station,
        body := .presence (decide (s.access.standing = .caution)) defence (decide (s.epoch.lastSeen = none)) r.unitTag
          (s.epoch.lastSeen.getD 0) } := by
  have caution : (s.access.standing == .caution) = decide (s.access.standing = .caution) := by
    cases s.access.standing <;> rfl
  have unseen : s.epoch.lastSeen.isNone = decide (s.epoch.lastSeen = none) := by
    cases s.epoch.lastSeen <;> rfl
  unfold latchedFrame presenceFrame
  dsimp only
  rw [ownNumber_of_record recorded, recorded, caution, unseen]

theorem latch_newValue {e : PubEntry} (new : e.item = some .newValue) (source : Station) : e.latch source =
    { cls := e.cls, source := source, body := .update e.firstArmed false e.topic e.nextSeq e.payload } := by
  unfold PubEntry.latch
  rw [new]

theorem latch_repeatValue {e : PubEntry} (again : e.item = some .repeatValue) (source : Station) : e.latch source =
    { cls := e.cls, source := source, body := .update false true e.topic (e.nextSeq - 1) e.payload } := by
  unfold PubEntry.latch
  rw [again]

theorem nextNumber_of_none {u : EpochUnit} (unseen : u.lastSeen = none) : u.nextNumber = 0 := by
  unfold EpochUnit.nextNumber
  rw [unseen]

theorem nextNumber_of_some {u : EpochUnit} {e : SeqNo} (seen : u.lastSeen = some e) : u.nextNumber = e + 1 := by
  unfold EpochUnit.nextNumber
  rw [seen]

/-! ## The attempt (R26, R28) -/

theorem slotStart_of_booked {s : State} {b : Fin 256} {e : Nat} (running : s.held = false)
    (booked : s.access.booking = some b) (counting : s.access.slotTime = some e) (between : s.line.receive = .betweenFrames)
    (off : s.line.send = .off) (free : s.access.inFlight = none) :
    exec .bookedSlotStart s = .next (bookedSlotStart b s) := by
  have can : slotCanBegin s = true := (slotCanBegin_iff s).mpr ⟨by rw [counting]; rfl, between, off, free⟩
  refine congrArg Host.Outcome.next ((whenRunning_running s _ running).trans ?_)
  simp only [booked, if_pos can]

/-- The booked slot has begun, and the booking is used up. -/
def slotBegun (s : State) (b : Fin 256) : State :=
  s.setAccess { s.access with booking := none, slotTime := some (max (s.access.slotTime.getD 0) (slotStart s b)) }

theorem bookedSlotStart_of_head {s : State} {it : Item} {rest : List Item} (b : Fin 256) (permitted : permission s = true)
    (head : s.pubs.items = it :: rest) : bookedSlotStart b s = startAttempt (slotBegun s b) it := by
  have permitted' : permission (slotBegun s b) = true := permitted
  have head' : (slotBegun s b).pubs.items.head? = some it := congrArg List.head? head
  unfold bookedSlotStart
  dsimp only
  rw [show permission (s.setAccess _) = true from permitted', show (s.setAccess _).pubs.items.head? = some it from head']
  rfl

theorem bookedSlotStart_of_nothing {s : State} (b : Fin 256) (nothing : s.pubs.items = [] ∨ permission s = false) :
    bookedSlotStart b s = slotBegun s b := by
  unfold bookedSlotStart
  dsimp only
  split
  · rename_i it permitted head
    obtain empty | refused := nothing
    · have head' : s.pubs.items.head? = some it := head
      rw [empty] at head'
      cases head'
    · exact absurd (refused.symm.trans permitted) Bool.false_ne_true
  · rfl

/-- What the start of an attempt changes (R15, R28). -/
theorem startAttempt_spec (s : State) (it : Item) :
    startAttempt s it = { s with
      line := { s.line with
        send := .sending (sendTime s (encodeFrame (latchedFrame s it.kind))), gap := none, markHeard := 0,
        blocked := some (s.line.blocked.getD { elapsed := 0, reported := false }) },
      access := { s.access with slotTime := none, inFlight := some (flightOf s it) },
      pubs := (noteLatch s it.kind).pubs, epoch := (noteLatch s it.kind).epoch } := by
  unfold startAttempt noteLatch flightOf
  cases it.kind <;> rfl

theorem latchedFrame_slotBegun (s : State) (b : Fin 256) (kind : ItemKind) :
    latchedFrame (slotBegun s b) kind = latchedFrame s kind := by
  cases kind <;> rfl

theorem flightOf_slotBegun (s : State) (b : Fin 256) (it : Item) : flightOf (slotBegun s b) it = flightOf s it := by
  unfold flightOf
  rw [latchedFrame_slotBegun]
  rfl

theorem sendTime_eq (s : State) (covered : List Byte) : sendTime s covered = (8 + 10 * (covered.length + 2)) * lineBit s := by
  unfold sendTime
  rw [frameLevels_length, withCheck_length]

/-- Settles O9: the slot's attempt is `startAttempt` for the head, and the frames are those of `latchedFrame`. -/
theorem bookedSlotStartsTheHead : Obligations.BookedSlotStartsTheHead := by
  refine ⟨fun s b e running booked counting between off free =>
    ⟨fun it rest head permitted => ⟨startAttempt (slotBegun s b) it, ?attempt⟩, fun nothing => ⟨max (s.access.slotTime.getD 0) (slotStart s b), ?nothing⟩⟩,
    fun s r recorded => ⟨?claim, presenceFrame_of_record recorded, fun unseen => ?firstEpoch, fun e seen => ?nextEpoch,
      fun topic => ?asked, fun i => ⟨fun new => ?new, fun again => ?again⟩⟩⟩
  case attempt =>
    have next := slotStart_of_booked running booked counting between off free
    rw [bookedSlotStart_of_head b permitted head] at next
    refine ⟨next, ?_⟩
    rw [startAttempt_spec, flightOf_slotBegun, latchedFrame_slotBegun, sendTime_eq]
    refine ⟨rfl, ?_, rfl, rfl, rfl, rfl, rfl, ?_, fun i update => ?_, fun epoch => ?_⟩
    · rfl
    · cases it.kind <;> rfl
    · dsimp only
      rw [update]
      exact ⟨congrArg PubEntry.inFlight (updPub_self (slotBegun s b) i _),
        congrArg PubEntry.writtenSinceLatch (updPub_self (slotBegun s b) i _)⟩
    · dsimp only
      rw [epoch]
      exact ⟨rfl, rfl⟩
  case nothing =>
    rw [slotStart_of_booked running booked counting between off free, bookedSlotStart_of_nothing b nothing]
    rfl
  case claim =>
    unfold latchedFrame
    dsimp only
    rw [ownNumber_of_record recorded, recorded]
  case firstEpoch =>
    unfold latchedFrame
    dsimp only
    rw [ownNumber_of_record recorded, nextNumber_of_none unseen]
  case nextEpoch =>
    unfold latchedFrame
    dsimp only
    rw [ownNumber_of_record recorded, nextNumber_of_some seen]
  case asked =>
    unfold latchedFrame
    dsimp only
    rw [ownNumber_of_record recorded]
  case new =>
    unfold latchesRepeat latchedFrame
    dsimp only
    rw [latch_newValue new, ownNumber_of_record recorded, new]
    exact ⟨rfl, rfl⟩
  case again =>
    unfold latchesRepeat latchedFrame
    dsimp only
    rw [latch_repeatValue again, ownNumber_of_record recorded, again]
    exact ⟨rfl, rfl⟩

end Sys2Proof.Machine
end

section
/-! JAM_END outside LEAVING (R32, R33): the retry, and the abandonment after the sixteenth collision. -/

namespace Sys2Proof.Machine

/-- The jam has been sent and the attempt is over (R15, R32). -/
def jamDone (s : State) : State := (s.setLine s.line.afterJam).setAccess { s.access with inFlight := none }

theorem exec_jamEnd_of_flight {s : State} {n : Nat} {f : Flight} (running : s.held = false)
    (jamming : s.line.send = .jamming n) (flying : s.access.inFlight = some f) :
    exec .jamEnd s = .next (settleBooking ((jamOutcome f s).andThen finishLeaving).done) := by
  refine congrArg Host.Outcome.next ((whenRunning_running s _ running).trans ?_)
  simp only [jamming, flying]
  rfl

theorem finishLeaving_of_not_leaving {s : State} (staying : s.session.state ≠ .leaving) : finishLeaving s = (s, []) :=
  if_neg staying

/-- Outside LEAVING nothing follows the outcome of the attempt. -/
theorem jamOutcome_finish {f : Flight} {s : State} (staying : (jamOutcome f s).1.session.state ≠ .leaving) :
    ((jamOutcome f s).andThen finishLeaving).done = postAll (jamOutcome f s).1 (jamOutcome f s).2 := by
  rw [done_def, andThen_fst, andThen_snd, finishLeaving_of_not_leaving staying, List.append_nil]

theorem jamOutcome_of_few {f : Flight} {s : State} (few : attemptsOf s f.kind < 16) :
    jamOutcome f s = (ownerCollided f.kind (jamDone s), []) := if_neg (Nat.not_le.mpr few)

theorem jamOutcome_of_many {f : Flight} {s : State} (many : 16 ≤ attemptsOf s f.kind) :
    jamOutcome f s = abandon f.kind (jamDone s) := if_pos many

/-! ## The retry (R32, R128, R159) -/

section Owner

variable {s : State} {i : PubIndex}

theorem updateCollided_of_withdrawing (withdrawing : (s.pubs.table[i]).state = .withdrawing) :
    updateCollided s i = removeItem (s.updPub i fun _ => PubEntry.initial) (.update i) := by
  unfold updateCollided
  rw [withdrawing]

theorem updateCollided_of_staying (kept : (s.pubs.table[i]).state ≠ .withdrawing) (staying : s.session.state ≠ .leaving) :
    updateCollided s i = s.updPub i fun e => { e with inFlight := false, rePend := false } := by
  unfold updateCollided
  split
  · rename_i withdrawing
    exact absurd withdrawing kept
  all_goals exact if_neg staying

/-- Outside LEAVING a collision that is not the sixteenth leaves the item in the list (R32). -/
theorem ownerCollided_of_staying (kind : ItemKind) (staying : s.session.state ≠ .leaving) :
    ownerCollided kind s =
      match kind with
      | .claim | .presence _ | .recallItem _ => s
      | .epoch => epochCollided s
      | .update i => updateCollided s i := by
  unfold ownerCollided
  dsimp only
  rw [if_neg staying] <;> rfl

end Owner

/-- What a retry leaves of the session's owners: the request of an EPOCH waits, and the entry of an UPDATE is out of
flight, or freed when it was being withdrawn (R128, R159). -/
theorem ownerCollided_spec {s : State} (kind : ItemKind) (staying : s.session.state ≠ .leaving) :
    ∃ pubs request, ownerCollided kind s = (s.setPubs pubs).setEpoch { s.epoch with request := request } ∧
      ((∀ i, kind = .update i → (s.pubs.table[i]).state ≠ .withdrawing) → pubs.items = s.pubs.items) ∧
      (∀ i, kind = .update i → (s.pubs.table[i]).state = .withdrawing →
        pubs.items = (s.pubs.items.filter fun it => it.kind != kind) ∧ pubs.table[i] = PubEntry.initial) ∧
      (∀ i, kind = .update i → (s.pubs.table[i]).state = .active →
        (pubs.table[i]).inFlight = false ∧ (pubs.table[i]).rePend = false ∧
        (pubs.table[i]).item = (s.pubs.table[i]).item ∧ (pubs.table[i]).nextSeq = (s.pubs.table[i]).nextSeq) ∧
      (kind = .epoch → request = .waiting) ∧ (kind ≠ .epoch → request = s.epoch.request) := by
  rw [ownerCollided_of_staying kind staying]
  cases kind with
  | update i =>
    dsimp only
    by_cases withdrawing : (s.pubs.table[i]).state = .withdrawing
    · rw [updateCollided_of_withdrawing withdrawing]
      refine ⟨(removeItem (s.updPub i fun _ => PubEntry.initial) (.update i)).pubs, s.epoch.request, rfl,
        fun kept => absurd withdrawing (kept i rfl), fun j same _ => ?_, fun j same active => ?_,
        nofun, fun _ => rfl⟩
      · cases same
        exact ⟨rfl, updPub_self s i _⟩
      · cases same
        rw [withdrawing] at active
        cases active
    · rw [updateCollided_of_staying withdrawing staying]
      refine ⟨(s.updPub i fun e => { e with inFlight := false, rePend := false }).pubs, s.epoch.request, rfl,
        fun _ => rfl, fun j same gone => ?_, fun j same active => ?_, nofun, fun _ => rfl⟩
      · cases same
        exact absurd gone withdrawing
      · cases same
        have entry := updPub_self s i fun e => { e with inFlight := false, rePend := false }
        rw [entry]
        exact ⟨rfl, rfl, rfl, rfl⟩
  | epoch => exact ⟨s.pubs, .waiting, rfl, fun _ => rfl, nofun, nofun, fun _ => rfl, fun other => absurd rfl other⟩
  | claim => exact ⟨s.pubs, s.epoch.request, rfl, fun _ => rfl, nofun, nofun, nofun, fun _ => rfl⟩
  | presence d => exact ⟨s.pubs, s.epoch.request, rfl, fun _ => rfl, nofun, nofun, nofun, fun _ => rfl⟩
  | recallItem topic => exact ⟨s.pubs, s.epoch.request, rfl, fun _ => rfl, nofun, nofun, nofun, fun _ => rfl⟩

/-- The gap after a jam (R5). -/
theorem afterJam_gap (l : LineInterface) :
    (l.receive = .betweenFrames → l.level = .idle → l.afterJam.gap = some 0) ∧ (l.level = .active → l.afterJam.gap = none) ∧
      ∀ r, l.receive = .inFrame r → l.afterJam.gap = none := by
  unfold LineInterface.afterJam
  refine ⟨fun between idle => ?_, fun active => ?_, fun r frame => ?_⟩
  · dsimp only
    rw [between, idle]
    rfl
  · dsimp only
    rw [active]
    exact if_neg (by cases l.receive <;> exact nofun)
  · dsimp only
    rw [frame]
    rfl

/-- Settles O12: outside LEAVING the outcome is that of the owner, `ownerCollided`. -/
theorem jamEndKeepsTheItemForARetry : Obligations.JamEndKeepsTheItemForARetry := by
  intro s n f running jamming flying staying few
  have next := exec_jamEnd_of_flight running jamming flying
  obtain ⟨pubs, request, changed, kept, gone, active, epoch, other⟩ := ownerCollided_spec (s := jamDone s) f.kind staying
  have outcome : jamOutcome f s = (((jamDone s).setPubs pubs).setEpoch { s.epoch with request := request }, []) :=
    (jamOutcome_of_few few).trans (congrArg (·, []) changed)
  have same : (jamOutcome f s).1.session.state ≠ .leaving := by
    rw [outcome]
    exact staying
  rw [jamOutcome_finish same, outcome, postAll_nil] at next
  obtain ⟨b, booked, settled⟩ := settleBooking_with (s := landed s)
    (u := ((jamDone s).setPubs pubs).setEpoch { s.epoch with request := request }) rfl rfl rfl
  dsimp only at next
  rw [booked] at next
  obtain ⟨idleGap, activeGap, frameGap⟩ := afterJam_gap s.line
  exact ⟨_, next, rfl, idleGap, activeGap, frameGap, rfl, settled, kept, gone, active, epoch, other⟩

/-! ## The sixteenth collision (R33) -/

theorem abandon_recall_of_listed {s : State} {topic : Topic} {p : RecallPos} (listed : recallAt s topic = some p) :
    abandon (.recallItem topic) s =
      ((removeItem s (.recallItem topic)).updRecall p fun _ => RecallEntry.initial,
        [.transmitAbandoned .recallFrame topic.toNat, .recallDone topic .abandoned]) := by
  have listed' : recallAt (removeItem s (.recallItem topic)) topic = some p := listed
  unfold abandon ownerAbandoned recallAbandoned Posting.andThen
  dsimp only
  rw [listed']
  rfl

theorem abandon_recall_of_unlisted {s : State} {topic : Topic} (unlisted : recallAt s topic = none) :
    abandon (.recallItem topic) s =
      (removeItem s (.recallItem topic), [.transmitAbandoned .recallFrame topic.toNat]) := by
  have unlisted' : recallAt (removeItem s (.recallItem topic)) topic = none := unlisted
  unfold abandon ownerAbandoned recallAbandoned Posting.andThen
  dsimp only
  rw [unlisted']
  rfl

theorem abandon_update (i : PubIndex) (s : State) : abandon (.update i) s =
    ((removeItem s (.update i)).updPub i fun e =>
        if e.state = .withdrawing then PubEntry.initial else { e.clearMarks with inFlight := false, item := none },
      [.transmitAbandoned .update i.val]) := rfl

/-- An abandonment removes the item and changes its owner; a CLAIM's is apart (R33). -/
theorem abandon_spec {kind : ItemKind} (other : kind ≠ .claim) (s : State) : ∃ table cont epoch, (abandon kind s).1 =
    ((s.setPubs { s.pubs with table := table, items := s.pubs.items.filter fun it => it.kind != kind }).setCont cont).setEpoch
      epoch := by
  cases kind with
  | claim => exact absurd rfl other
  | presence d => exact ⟨_, _, _, rfl⟩
  | epoch => exact ⟨_, _, _, rfl⟩
  | recallItem topic =>
    cases listed : recallAt s topic with
    | none =>
      rw [abandon_recall_of_unlisted listed]
      exact ⟨_, _, _, rfl⟩
    | some p =>
      rw [abandon_recall_of_listed listed]
      exact ⟨s.pubs.table, { s.cont with recalls := upd s.cont.recalls p fun _ => RecallEntry.initial }, s.epoch, rfl⟩
  | update i =>
    exact ⟨upd s.pubs.table i fun e =>
        if e.state = .withdrawing then PubEntry.initial else { e.clearMarks with inFlight := false, item := none },
      s.cont, s.epoch, rfl⟩

/-- JAM_END at the sixteenth collision in MEMBER, of an item that is no CLAIM: what every owner's part has in common. -/
theorem jamEnd_abandons {s : State} {n : Nat} {f : Flight} (running : s.held = false) (jamming : s.line.send = .jamming n)
    (flying : s.access.inFlight = some f) (many : 16 ≤ attemptsOf s f.kind) (member : s.session.state = .member)
    (other : f.kind ≠ .claim) :
    ∃ t, exec .jamEnd s = .next t ∧ t.access.inFlight = none ∧ t.line.send = .off ∧ SettledBooking (landed s) t ∧
      t.pubs.items = (s.pubs.items.filter fun it => it.kind != f.kind) ∧ t.session = s.session ∧
      t.access.score = s.access.score ∧ t.access.bases = s.access.bases ∧
      t.port = (postAll s (abandon f.kind (jamDone s)).2).port ∧ t.pubs.table = (abandon f.kind (jamDone s)).1.pubs.table ∧
      t.cont = (abandon f.kind (jamDone s)).1.cont ∧ t.epoch = (abandon f.kind (jamDone s)).1.epoch := by
  have next := exec_jamEnd_of_flight running jamming flying
  obtain ⟨table, cont, epoch, changed⟩ := abandon_spec other (jamDone s)
  have same : (jamOutcome f s).1.session.state ≠ .leaving := by
    rw [jamOutcome_of_many many, changed]
    show s.session.state ≠ .leaving
    rw [member]
    exact nofun
  rw [jamOutcome_finish same, jamOutcome_of_many many] at next
  rw [changed] at next ⊢
  obtain ⟨b, booked, settled⟩ := settleBooking_postAll (s := s) (r := landed s)
    (u := (((jamDone s).setPubs { s.pubs with
      table := table, items := s.pubs.items.filter fun it => it.kind != f.kind }).setCont cont).setEpoch epoch)
    rfl rfl rfl rfl rfl (abandon f.kind (jamDone s)).2
  exact ⟨_, next.trans (congrArg Host.Outcome.next booked), rfl, rfl, settled, rfl, rfl, rfl, rfl, rfl, rfl, rfl, rfl⟩

/-- A refusal without recalls and without an epoch request posts SESSION_REFUSED alone (R51). -/
theorem refuse_quiet {s : State} (reason : RefusalReason) (free : ∀ p : RecallPos, (s.cont.recalls[p]).state = .free)
    (idle : s.epoch.request = .none) : (refuse reason s).2 = [.sessionRefused reason] := by
  have recalls : ((List.finRange 8).filterMap fun p : RecallPos =>
      if (s.cont.recalls[p]).state ≠ .free ∧ (s.cont.recalls[p]).origin = .host then
        some (Notice.recallDone (s.cont.recalls[p]).topic .cancelled)
      else none) = [] :=
    List.filterMap_eq_nil_iff.mpr fun p _ => if_neg fun busy => busy.1 (free p)
  have epoch : (if s.epoch.request = .none then [] else [Notice.epochDone .cancelled]) = [] := if_pos idle
  show ([Notice.sessionRefused reason] ++ _) ++ _ = _
  exact (congrArg₂ (fun xs ys => ([Notice.sessionRefused reason] ++ xs) ++ ys) recalls epoch).trans rfl

theorem abandon_claim {s : State} (claiming : s.session.state = .claiming) : abandon .claim s =
    ((refuse .claimFailed (removeItem s .claim)).1,
      .transmitAbandoned .claim (ownNumber s).val :: (refuse .claimFailed (removeItem s .claim)).2) := by
  have claiming' : (removeItem s .claim).session.state = .claiming := claiming
  unfold abandon ownerAbandoned Posting.andThen
  dsimp only
  rw [if_pos claiming']
  rfl

/-- JAM_END at the sixteenth collision of a CLAIM (R45). -/
theorem jamEnd_refuses {s : State} {n : Nat} {f : Flight} (running : s.held = false) (jamming : s.line.send = .jamming n)
    (flying : s.access.inFlight = some f) (many : 16 ≤ attemptsOf s f.kind) (claiming : s.session.state = .claiming)
    (claim : f.kind = .claim) (free : ∀ p : RecallPos, (s.cont.recalls[p]).state = .free)
    (idle : s.epoch.request = .none) :
    ∃ t, exec .jamEnd s = .next t ∧ t.session.state = .refused ∧ t.pubs.items = [] ∧ t.access.booking = none ∧
      t.port = (postAll s [.transmitAbandoned .claim (ownNumber s).val, .sessionRefused .claimFailed]).port := by
  have next := exec_jamEnd_of_flight running jamming flying
  have outcome : jamOutcome f s = ((refuse .claimFailed (removeItem (jamDone s) .claim)).1,
      [.transmitAbandoned .claim (ownNumber s).val, .sessionRefused .claimFailed]) := by
    rw [jamOutcome_of_many many, claim, abandon_claim (s := jamDone s) claiming,
      refuse_quiet (s := removeItem (jamDone s) .claim) .claimFailed free idle]
    rfl
  have refused : (jamOutcome f s).1.session.state = .refused := by
    rw [outcome]
    rfl
  rw [jamOutcome_finish (by rw [refused]; exact nofun), outcome] at next
  dsimp only at next
  rw [postAll_of_port (s := s) (by rfl) (by rfl)] at next
  have unpermitted : permission ((refuse .claimFailed (removeItem (jamDone s) .claim)).1.setPort
      (postAll s [.transmitAbandoned .claim (ownNumber s).val, .sessionRefused .claimFailed]).port) = false := rfl
  rw [settleBooking_no_permission _ unpermitted] at next
  exact ⟨_, next, rfl, rfl, rfl, rfl⟩

/-- Settles O13: the item's owner acts as `abandon` says, kind by kind. -/
theorem sixteenthCollisionAbandonsTheItem : Obligations.SixteenthCollisionAbandonsTheItem := by
  refine fun s n f running jamming flying many => ⟨fun member other => ?abandoned,
    jamEnd_refuses running jamming flying many⟩
  obtain ⟨t, next, landed, off, settled, items, session, score, bases, port, table, cont, epoch⟩ :=
    jamEnd_abandons running jamming flying many member other
  refine ⟨t, next, landed, off, settled, items, session, score, bases, fun d kind => ?_, fun kind => ?_,
    fun topic p kind listed => ?_, fun i kind => ?_⟩
  · rw [port, kind]
    rfl
  · rw [port, epoch, kind]
    exact ⟨rfl, rfl⟩
  · rw [kind, abandon_recall_of_listed (s := jamDone s) listed] at port cont
    rw [cont]
    exact ⟨upd_getElem_self _ _ _, port⟩
  · rw [kind] at port table
    have entry : t.pubs.table[i] = (if (s.pubs.table[i]).state = .withdrawing then PubEntry.initial
        else { (s.pubs.table[i]).clearMarks with inFlight := false, item := none }) := by
      rw [table]
      exact updPub_self (removeItem (jamDone s) (.update i)) i _
    refine ⟨port, fun withdrawing => entry.trans (if_pos withdrawing), fun active => ?_⟩
    rw [entry, if_neg (by rw [active]; exact nofun)]
    exact ⟨active, rfl, rfl, rfl⟩

end Sys2Proof.Machine
end

section
/-! Collisions and line activity outside a frame (R5, R7, R16, R19, R31). -/

namespace Sys2Proof.Machine

/-! ## The comparator (R16) -/

theorem comparing_iff (s : State) : comparing s = true ↔ s.access.inFlight ≠ none ∧ s.line.send.isJamming = false := by
  unfold comparing
  rw [Bool.and_eq_true, Bool.not_eq_true', Option.isSome_iff_ne_none]

theorem not_comparing_iff (s : State) : comparing s = false ↔ s.access.inFlight = none ∨ s.line.send.isJamming = true := by
  rw [← Bool.not_eq_true, comparing_iff, not_and_or, not_not, Bool.not_eq_false]

theorem comparing_of_same {s t : State} (flight : t.access.inFlight = s.access.inFlight) (send : t.line.send = s.line.send) :
    comparing t = comparing s := by
  unfold comparing
  rw [flight, send]

theorem sentBytes_of_flight {s : State} {f : Flight} (flying : s.access.inFlight = some f) :
    sentBytes s = withCheck f.covered := by
  unfold sentBytes
  rw [flying]

/-- The mismatch that an attempt shows from its first bit time on (R16). -/
theorem echoMismatch_zero {s : State} {f : Flight} (flying : s.access.inFlight = some f)
    (sending : s.line.send.isJamming = false) (received : List LineLevel) :
    echoMismatch s 0 received = firstDifference (frameLevels (withCheck f.covered)) received := by
  unfold echoMismatch
  rw [if_pos ((comparing_iff s).mpr ⟨by rw [flying]; exact nofun, sending⟩), sentBytes_of_flight flying, List.drop_zero]
  exact Option.map_id'

/-- The start of what is driven shows no difference. -/
theorem firstDifference_of_prefix (ds rest : List LineLevel) : firstDifference (ds ++ rest) ds = none := by
  induction ds with
  | nil => cases rest <;> rfl
  | cons d ds ih => rw [List.cons_append, firstDifference, if_pos rfl, ih]; rfl

/-! ## A collision (R31) -/

/-- The Access Controller after a collision, with the booking given. -/
def collidedAccess (s : State) (booking : Option (Fin 256)) : AccessController :=
  { s.access with
    bases := Vector.replicate 8 31, booking := booking, score := min 255 (s.access.score + 8),
    standing := nextStanding s.access.standing (min 255 (s.access.score + 8)) }

/-- The state after a collision of `f`, with the booking given (R31). -/
def collided (f : Flight) (s : State) (booking : Option (Fin 256)) : State :=
  { s with
    line := { s.line with send := .jamming (24 * lineBit s) }, access := collidedAccess s booking,
    pubs := { s.pubs with
      items := s.pubs.items.map fun it => if it.kind = f.kind then { it with attempts := it.attempts + 1 } else it },
    port := (postAll s (standingNotices s.access.standing
      (nextStanding s.access.standing (min 255 (s.access.score + 8))))).port }

/-- In an attempt the booking stays through a collision, or goes with the permission (R27). -/
theorem collide_collided {s : State} {f : Flight} (flying : s.access.inFlight = some f) :
    ∃ b, collide f s = collided f s b ∧ (b = none ∨ b = s.access.booking) ∧
      (permission (collided f s b) = false → b = none) := by
  unfold collide
  dsimp only
  rw [done_def, raiseScore_fst, raiseScore_snd]
  obtain ⟨b, booked, dropped, kept⟩ := settleBooking_postAll (s := s) (r := s)
    (u := (countAttempt (resetBases (s.setLine { s.line with send := .jamming (24 * lineBit s) })) f.kind).setAccess
      { s.access with
        bases := Vector.replicate 8 31, score := min 255 (s.access.score + 8),
        standing := nextStanding s.access.standing (min 255 (s.access.score + 8)) })
    rfl rfl rfl rfl rfl
    (standingNotices s.access.standing (nextStanding s.access.standing (min 255 (s.access.score + 8))))
  refine ⟨b, booked, ?_, dropped⟩
  cases permitted : permission (collided f s b) with
  | true => exact .inr ((kept permitted).1 (.inr (.inl (by rw [flying]; exact nofun))))
  | false => exact .inl (dropped permitted)

/-- What `Collided` asks of a state, read off one in which the collision has happened already. -/
theorem Collided.of_same {s t u : State} {f : Flight} (h : Collided s t f) (send : u.line.send = t.line.send)
    (access : u.access = t.access) (pubs : u.pubs = t.pubs) (session : u.session = t.session) (port : u.port = t.port) :
    Collided s u f := by
  have permitted : permission u = permission t := by
    unfold permission
    rw [session, access, pubs]
  unfold Collided at h ⊢
  rw [send, access, pubs, port, permitted]
  exact h

/-- A collision in a state that differs from `s` in nothing that a collision reads. -/
theorem collided_spec {s u : State} {f : Flight} {b : Option (Fin 256)} (rate : u.line.rate = s.line.rate)
    (clock : u.line.clock = s.line.clock) (score : u.access.score = s.access.score)
    (standing : u.access.standing = s.access.standing) (flying : u.access.inFlight = some f) (pubs : u.pubs = s.pubs)
    (port : u.port = s.port) (dropped : permission (collided f u b) = false → b = none) : Collided s (collided f u b) f := by
  have bit : lineBit u = lineBit s := by
    unfold lineBit
    rw [rate]
  refine ⟨congrArg (fun n => SendCondition.jamming (24 * n)) bit, fun c => Vector.getElem_replicate _,
    congrArg (fun n => min 255 (n + 8)) score, ?_, ?_, flying, dropped, ?_⟩
  · show standingRow s.access.standing (min 255 (u.access.score + 8))
      (nextStanding u.access.standing (min 255 (u.access.score + 8)))
    rw [standing]
    exact nextStanding_row _ _
  · show (postAll u (standingNotices u.access.standing
        (nextStanding u.access.standing (min 255 (u.access.score + 8))))).port =
      (postAll s (standingNotices s.access.standing (nextStanding u.access.standing (min 255 (u.access.score + 8))))).port
    rw [standing, postAll_of_port port clock]
    rfl
  · exact congrArg (fun p : PublicationUnit => { p with
      items := p.items.map fun it : Item => if it.kind = f.kind then { it with attempts := it.attempts + 1 } else it }) pubs

/-! ## LINE_ACTIVITY (R3, R5, R7, R19) -/

/-- An activity outside a frame, without its collision. -/
def activityNoted (run idle : Nat) (a : Activity) (m : Option Nat) (s : State) : State :=
  if opensFrame s a && m.all (8 ≤ ·) then openFrameAt (noteActivity s run idle m.isSome) else noteActivity s run idle m.isSome

theorem classifyActivity_isSome {run : Nat} (active : 0 < run) (idle : Nat) :
    ∃ a, classifyActivity run idle = some a ∧ ((a == .startMark) = true ↔ 5 ≤ run ∧ run ≤ 7 ∧ 2 ≤ idle) := by
  unfold classifyActivity
  rw [if_neg (by omega)]
  by_cases jam : 11 ≤ run
  · rw [if_pos jam]
    exact ⟨_, rfl, nofun, fun mark => by omega⟩
  · rw [if_neg jam]
    by_cases mark : 5 ≤ run ∧ run ≤ 7 ∧ 2 ≤ idle
    · rw [if_pos mark]
      exact ⟨_, rfl, fun _ => mark, fun _ => rfl⟩
    · rw [if_neg mark]
      exact ⟨_, rfl, nofun, fun mark' => absurd mark' mark⟩

theorem lineActivity_of_awaiting {s : State} {run idle : Nat} {a : Activity} (kind : classifyActivity run idle = some a)
    (awaits : s.line.receive = .seeking ∨ s.line.receive = .betweenFrames) :
    lineActivity run idle s =
      collideAt (echoMismatch s s.line.markHeard (activityLevels run idle))
        (activityNoted run idle a (echoMismatch s s.line.markHeard (activityLevels run idle)) s) := by
  unfold lineActivity
  simp only [kind, if_pos ((awaitsGap_iff s.line.receive).mpr awaits)]
  rfl

theorem exec_lineActivity_of_running {s : State} (running : s.held = false) (run idle : Nat) :
    exec (.lineActivity run idle) s = .next (lineActivity run idle s) :=
  congrArg Host.Outcome.next (whenRunning_running s _ running)

theorem opensFrame_iff (s : State) (a : Activity) :
    opensFrame s a = true ↔ (a == .startMark) = true ∧ s.line.receive = .betweenFrames ∧ s.line.markCut = false := by
  unfold opensFrame
  rw [Bool.and_eq_true, Bool.and_eq_true, beq_iff_eq (a := s.line.receive), Bool.not_eq_true', and_assoc]

/-- What an activity notes of the line, whether it opens a frame or not (R5, R7, R16). -/
theorem noteActivity_line (s : State) (run idle : Nat) (cut : Bool) :
    (noteActivity s run idle cut).line = { s.line with
      level := if idle = 0 then .active else .idle,
      gap := if idle = 0 then none else some (idle * lineBit s),
      markHeard := if comparing s && idle != 0 then s.line.markHeard + run + idle else s.line.markHeard,
      markCut := decide (idle = 0) && (cut || s.line.markCut),
      blocked := some (s.line.blocked.getD { elapsed := (run + idle) * lineBit s, reported := false }) } := rfl

/-- An activity changes the line, the slot count and the booking. -/
theorem activityNoted_eq (run idle : Nat) (a : Activity) (m : Option Nat) (s : State) :
    activityNoted run idle a m s =
      { s with line := (activityNoted run idle a m s).line, access := { s.access with slotTime := none, booking := none } } ∧
    (activityNoted run idle a m s).line = { (noteActivity s run idle m.isSome).line with
      gap := (activityNoted run idle a m s).line.gap, receive := (activityNoted run idle a m s).line.receive } := by
  unfold activityNoted
  split
  · exact ⟨rfl, rfl⟩
  · exact ⟨rfl, rfl⟩

theorem activityNoted_of_opening {s : State} {a : Activity} {m : Option Nat} (run idle : Nat) (opens : opensFrame s a = true)
    (behind : m.all (8 ≤ ·) = true) :
    (activityNoted run idle a m s).line.receive = justOpened (comparing s) ∧ (activityNoted run idle a m s).line.gap = none := by
  unfold activityNoted
  rw [opens, behind, Bool.and_self, if_pos rfl]
  have same : comparing (noteActivity s run idle m.isSome) = comparing s := comparing_of_same rfl rfl
  refine ⟨?_, rfl⟩
  exact congrArg justOpened same

theorem activityNoted_of_closed {s : State} {a : Activity} {m : Option Nat} (run idle : Nat)
    (closed : ¬ (opensFrame s a = true ∧ m.all (8 ≤ ·) = true)) :
    activityNoted run idle a m s = noteActivity s run idle m.isSome :=
  if_neg fun both => closed (Bool.and_eq_true .. ▸ both)

/-- The count of bit times in an attempt (R16). -/
theorem markHeard_of_comparing (s : State) (run idle : Nat) :
    (s.access.inFlight ≠ none → s.line.send.isJamming = false → idle ≠ 0 →
      (if comparing s && idle != 0 then s.line.markHeard + run + idle else s.line.markHeard) =
        s.line.markHeard + run + idle) ∧
    (s.access.inFlight = none ∨ s.line.send.isJamming = true ∨ idle = 0 →
      (if comparing s && idle != 0 then s.line.markHeard + run + idle else s.line.markHeard) = s.line.markHeard) := by
  refine ⟨fun flying sending ended => if_pos ?_, fun stopped => if_neg fun both => ?_⟩
  · rw [(comparing_iff s).mpr ⟨flying, sending⟩, Bool.true_and]
    exact bne_iff_ne.mpr ended
  · obtain ⟨compares, ended⟩ := (Bool.and_eq_true _ _).mp both
    obtain ⟨flying, sending⟩ := (comparing_iff s).mp compares
    obtain idle' | jamming | open' := stopped
    · exact flying idle'
    · exact Bool.false_ne_true (sending.symm.trans jamming)
    · exact bne_iff_ne.mp ended open'

/-- LINE_ACTIVITY without a mismatch (R3, R5, R7, R19). -/
theorem activityNoted_quiet {s : State} {run idle : Nat} {a : Activity}
    (mark : (a == .startMark) = true ↔ 5 ≤ run ∧ run ≤ 7 ∧ 2 ≤ idle) :
    let t := activityNoted run idle a none s
    t.line.blocked.isSome = true ∧ (s.line.blocked.isSome = true → t.line.blocked = s.line.blocked) ∧
    t.line.send = s.line.send ∧ t.line.clock = s.line.clock ∧ t.line.rate = s.line.rate ∧
    t.line.level = (if idle = 0 then .active else .idle) ∧
    t.line.markCut = (decide (idle = 0) && s.line.markCut) ∧
    (s.access.inFlight ≠ none → s.line.send.isJamming = false → idle ≠ 0 →
      t.line.markHeard = s.line.markHeard + run + idle) ∧
    (s.access.inFlight = none ∨ s.line.send.isJamming = true ∨ idle = 0 → t.line.markHeard = s.line.markHeard) ∧
    (5 ≤ run → run ≤ 7 → 2 ≤ idle → s.line.receive = .betweenFrames → s.line.markCut = false →
      (s.access.inFlight = none ∨ s.line.send.isJamming = true → t.line.receive = justOpened false) ∧
      (s.access.inFlight ≠ none → s.line.send.isJamming = false → t.line.receive = justOpened true) ∧
      t.line.gap = none) ∧
    (run < 5 ∨ 7 < run ∨ idle < 2 ∨ s.line.receive = .seeking ∨ s.line.markCut = true →
      t.line.receive = s.line.receive ∧ t.line.gap = if idle = 0 then none else some (idle * lineBit s)) := by
  dsimp only
  obtain ⟨counted, uncounted⟩ := markHeard_of_comparing s run idle
  have line := (activityNoted_eq run idle a none s).2
  rw [noteActivity_line] at line
  have opening : opensFrame s a = true → _ := fun opens =>
    activityNoted_of_opening (m := none) run idle opens rfl
  have closed : ¬ opensFrame s a = true → activityNoted run idle a none s = noteActivity s run idle false := fun closed =>
    activityNoted_of_closed run idle fun both => closed both.1
  generalize activityNoted run idle a none s = t at line opening closed
  rw [line]
  refine ⟨rfl, fun measured => ?_, rfl, rfl, rfl, rfl, rfl, counted, uncounted, fun low high gap between uncut => ?_,
    fun other => ?_⟩
  · obtain ⟨m, same⟩ := Option.isSome_iff_exists.mp measured
    dsimp only
    rw [same]
    rfl
  · obtain ⟨receive, gap'⟩ := opening ((opensFrame_iff s a).mpr ⟨mark.mpr ⟨low, high, gap⟩, between, uncut⟩)
    refine ⟨fun stopped => ?_, fun flying sending => ?_, gap'⟩
    · exact receive.trans (congrArg justOpened ((not_comparing_iff s).mpr stopped))
    · exact receive.trans (congrArg justOpened ((comparing_iff s).mpr ⟨flying, sending⟩))
  · have noted := closed fun opens => by
      obtain ⟨isMark, between, uncut⟩ := (opensFrame_iff s a).mp opens
      obtain ⟨low, high, gap⟩ := mark.mp isMark
      obtain short | long | brief | seeking | cut := other
      · omega
      · omega
      · omega
      · rw [between] at seeking
        cases seeking
      · rw [uncut] at cut
        cases cut
    rw [noted]
    exact ⟨rfl, rfl⟩

/-- Settles O7: an activity notes what `noteActivity` says, opens a frame where it is a start mark, and a mismatch in it
is a collision. -/
theorem lineActivityEndsTheSlotCount : Obligations.LineActivityEndsTheSlotCount := by
  intro s run idle running awaits active
  obtain ⟨a, kind, mark⟩ := classifyActivity_isSome active idle
  have next := exec_lineActivity_of_running running run idle
  rw [lineActivity_of_awaiting kind awaits] at next
  refine ⟨fun quiet => ?_, fun n f mismatch flying => ?_⟩
  · rw [quiet, collideAt_none] at next
    exact ⟨_, next, (activityNoted_eq run idle a none s).1, activityNoted_quiet mark⟩
  · obtain ⟨state, line⟩ := activityNoted_eq run idle a (some n) s
    have closed : n < 8 → activityNoted run idle a (some n) s = noteActivity s run idle true := fun early =>
      activityNoted_of_closed run idle fun both => by
        have behind : 8 ≤ n := of_decide_eq_true both.2
        omega
    have flying' : (activityNoted run idle a (some n) s).access.inFlight = some f := by
      rw [state]
      exact flying
    rw [mismatch, collideAt_some flying'] at next
    generalize activityNoted run idle a (some n) s = u at next state line closed flying'
    obtain ⟨b, collision, booking, dropped⟩ := collide_collided flying'
    have unbooked : b = none := booking.elim id fun same => same.trans (by rw [state])
    rw [collision] at next
    have rate : u.line.rate = s.line.rate := by rw [line]; rfl
    have clock : u.line.clock = s.line.clock := by rw [line]; rfl
    refine ⟨_, next, ?_, collided_spec rate clock (by rw [state]) (by rw [state]) flying' (by rw [state]) (by rw [state])
      dropped, ?_, unbooked, ?_, fun early => ?_⟩
    · rw [state]
      rfl
    · show u.access.slotTime = none
      rw [state]
    · show u.line.blocked.isSome = true
      rw [line]
      rfl
    · show u.line.receive = s.line.receive ∧ u.line.markCut = _
      rw [closed early]
      refine ⟨rfl, ?_⟩
      show (decide (idle = 0) && (true || s.line.markCut)) = _
      rw [Bool.true_or, Bool.and_true]

end Sys2Proof.Machine
end

section
/-! The check of a frame (R11). -/

namespace Sys2Proof.Machine

/-- A word is its two bytes (R189). -/
theorem word_eq_append (r : BitVec 16) : ∃ hi lo : Byte, r = hi ++ lo := by
  refine ⟨r.extractLsb' 8 8, r.extractLsb' 0 8, BitVec.eq_of_getLsbD_eq fun i low => ?_⟩
  rw [BitVec.getLsbD_append, BitVec.getLsbD_extractLsb', BitVec.getLsbD_extractLsb']
  by_cases lower : i < 8
  · simp [lower]
  · have back : 8 + (i - 8) = i := by omega
    have within : i - 8 < 8 := by omega
    simp [lower, within, back]

/-- The remainder's check stands behind the covered bytes, high byte first (R11). -/
theorem withCheck_eq {covered : List Byte} {hi lo : Byte} (check : checkOf covered = hi ++ lo) :
    withCheck covered = covered ++ [hi, lo] := by
  unfold withCheck
  rw [check, bytes16_append]

/-- A byte in the upper half of a word. -/
theorem setWidth_shiftLeft (b : Byte) : (b.setWidth 16 <<< 8 : BitVec 16) = b ++ (0 : Byte) := by
  refine BitVec.eq_of_getLsbD_eq fun i low => ?_
  rw [BitVec.getLsbD_append, BitVec.getLsbD_shiftLeft, BitVec.getLsbD_setWidth]
  by_cases lower : i < 8
  · simp [lower]
  · have within : i - 8 < 16 := by omega
    simp [low, lower, within]

/-- The first check byte cancels the upper half of the remainder. -/
theorem append_xor_high (hi lo : Byte) : ((hi ++ lo) ^^^ (hi ++ (0 : Byte)) : BitVec 16) = (0 : Byte) ++ lo := by
  refine BitVec.eq_of_getLsbD_eq fun i _ => ?_
  rw [BitVec.getLsbD_xor, BitVec.getLsbD_append, BitVec.getLsbD_append, BitVec.getLsbD_append]
  by_cases lower : i < 8
  · simp [lower]
  · simp [lower]

theorem checkByte_eq (r : BitVec 16) (b : Byte) : checkByte r b = checkShift^[8] (r ^^^ (b ++ (0 : Byte) : BitVec 16)) := by
  unfold checkByte
  dsimp only
  rw [setWidth_shiftLeft]
  rfl

/-- While the highest bit is 0 the remainder is only shifted. -/
theorem checkShift_of_low {r : BitVec 16} (low : r.toNat < 32768) :
    checkShift r = r <<< 1 ∧ (r <<< 1).toNat = 2 * r.toNat := by
  have clear : r.msb = false := by
    rw [BitVec.msb_eq_decide]
    exact decide_eq_false (by omega)
  unfold checkShift
  rw [clear, BitVec.toNat_shiftLeft, Nat.shiftLeft_eq, Nat.mod_eq_of_lt (by omega)]
  exact ⟨if_neg Bool.false_ne_true, by omega⟩

/-- As often as there is room the shifts only double the remainder. -/
theorem checkShift_iterate_of_low (n : Nat) {r : BitVec 16} (low : r.toNat * 2 ^ n < 65536) :
    (checkShift^[n] r).toNat = r.toNat * 2 ^ n := by
  induction n generalizing r with
  | zero => simp
  | succ n ih =>
    have room : 1 ≤ 2 ^ n := Nat.one_le_two_pow
    have half : r.toNat * 2 ^ n < 32768 := by rw [pow_succ, ← Nat.mul_assoc] at low; omega
    have small : r.toNat < 32768 := Nat.lt_of_le_of_lt (Nat.le_mul_of_pos_right _ room) half
    obtain ⟨shifted, doubled⟩ := checkShift_of_low small
    rw [Function.iterate_succ_apply, shifted, ih (by rw [doubled, Nat.mul_assoc]; omega), doubled, pow_succ]
    ring

/-- A byte in the lower half of the remainder has moved to the upper half after eight shifts (R11). -/
theorem checkShift_low_byte (lo : Byte) : checkShift^[8] ((0 : Byte) ++ lo : BitVec 16) = lo ++ (0 : Byte) := by
  have below := lo.isLt
  have value : ((0 : Byte) ++ lo : BitVec 16).toNat = lo.toNat := by
    rw [BitVec.toNat_append]
    simp
  refine BitVec.eq_of_toNat_eq ?_
  rw [checkShift_iterate_of_low 8 (by rw [value]; omega), value, BitVec.toNat_append, Nat.shiftLeft_eq]
  simp

theorem checkShift_zero : checkShift 0 = 0 := by decide

/-- The check bytes themselves leave the remainder 0 (R11). -/
theorem checkByte_check (hi lo : Byte) : checkByte (checkByte (hi ++ lo) hi) lo = 0 := by
  rw [checkByte_eq, checkByte_eq, append_xor_high, checkShift_low_byte, BitVec.xor_self]
  exact Function.iterate_fixed checkShift_zero 8

/-- The worked example of 1.6, byte by byte. -/
theorem checkOf_example : checkOf [0x13, 0x05, 0x01, 0x02, 0x00, 0x00] = 0xE1F7 := by
  have first : checkByte 0xFFFF 0x13 = 0xC3A2 := by decide
  have second : checkByte 0xC3A2 0x05 = 0x1B8A := by decide
  have third : checkByte 0x1B8A 0x01 = 0x397B := by decide
  have fourth : checkByte 0x397B 0x02 = 0xFC38 := by decide
  have fifth : checkByte 0xFC38 0x00 = 0x1693 := by decide
  have sixth : checkByte 0x1693 0x00 = 0xE1F7 := by decide
  unfold checkOf
  simp only [List.foldl_cons, List.foldl_nil, first, second, third, fourth, fifth, sixth]

/-- Settles O17: the two check bytes are those of the remainder, and each cancels its half. -/
theorem checkOfACheckedFrameIsZero : Obligations.CheckOfACheckedFrameIsZero := by
  refine ⟨fun covered => ?_, rfl, fun covered b => ?_, fun r => ?_, checkOf_example⟩
  · obtain ⟨hi, lo, check⟩ := word_eq_append (checkOf covered)
    rw [withCheck_eq check]
    unfold checkOf at check ⊢
    rw [List.foldl_append, check]
    exact checkByte_check hi lo
  · unfold checkOf
    rw [List.foldl_append]
    exact checkByte_eq _ b
  · unfold checkShift
    rw [BitVec.msb_eq_getLsbD_last]

end Sys2Proof.Machine
end

section
/-! The reception of characters and of a whole frame (R2 to R4, R8 to R12). -/

namespace Sys2Proof.Machine

/-! ## Characters (R2) -/

theorem Receiver.feed_nil (r : Receiver) : r.feed [] = r := rfl
theorem Receiver.feed_cons (r : Receiver) (l : LineLevel) (ls : List LineLevel) : r.feed (l :: ls) = (r.bit l).feed ls := rfl
theorem Receiver.feed_append (r : Receiver) (xs ys : List LineLevel) : r.feed (xs ++ ys) = (r.feed xs).feed ys :=
  List.foldl_append ..

/-- A bit time that makes no jam moves the receiver on (R6). -/
theorem Receiver.bit_of_running {r : Receiver} {l : LineLevel} (running : r.ended = false)
    (short : (r.count l).activeRun < 11) : r.bit l = (r.count l).advance l := by
  unfold Receiver.bit
  rw [running, if_neg Bool.false_ne_true]
  exact if_neg (Nat.not_le.mpr short)

/-- The receiver inside a character, after the data bits `bits`, with runs that the character itself explains. -/
def inCharacter (r : Receiver) (bits : List Bool) (active idle : Nat) : Receiver :=
  { r with phase := .character bits, activeRun := active, idleRun := idle }

/-- The level of a data bit (R2). -/
def bitLevel (bit : Bool) : LineLevel := if bit then .idle else .active

theorem feed_dataBits (r : Receiver) (bits more : List Bool) (active idle : Nat) (room : bits.length + more.length ≤ 8)
    (run : active ≤ 1 + bits.length) :
    ∃ active' idle', active' ≤ 1 + bits.length + more.length ∧
      (inCharacter r bits active idle).feed (more.map bitLevel) = inCharacter r (bits ++ more) active' idle' := by
  induction more generalizing bits active idle with
  | nil => exact ⟨active, idle, run, by rw [List.append_nil]; rfl⟩
  | cons bit more ih =>
    rw [List.length_cons] at room
    have place : bits.length < 8 := by omega
    have step : ∃ active' idle', active' ≤ 1 + (bits ++ [bit]).length ∧
        (inCharacter r bits active idle).bit (bitLevel bit) = inCharacter r (bits ++ [bit]) active' idle' := by
      have running : (inCharacter r bits active idle).ended = false := rfl
      cases bit with
      | true =>
        exact ⟨0, idle + 1, Nat.zero_le _,
          (Receiver.bit_of_running (l := .idle) running (Nat.succ_pos 10)).trans (if_pos place)⟩
      | false =>
        refine ⟨active + 1, 0, by rw [List.length_append]; simp only [List.length_singleton]; omega, ?_⟩
        have short : active + 1 < 11 := by omega
        exact (Receiver.bit_of_running (l := .active) running short).trans (if_pos place)
    obtain ⟨active', idle', run', moved⟩ := step
    obtain ⟨active'', idle'', run'', fed⟩ := ih (bits ++ [bit]) active' idle'
      (by rw [List.length_append, List.length_singleton]; omega) run'
    refine ⟨active'', idle'', ?_, ?_⟩
    · rw [List.length_append, List.length_singleton] at run''
      rw [List.length_cons]
      omega
    · rw [List.map_cons, Receiver.feed_cons, moved, fed, List.append_assoc]
      rfl

theorem byteOfBits_eq_flagByte (bits : List Bool) : byteOfBits bits = flagByte bits := by
  unfold byteOfBits flagByte
  congr 1
  induction bits with
  | nil => rfl
  | cons b bits ih => rw [List.foldr_cons, ih]; rfl

/-- The data bits of a byte make the byte (R2). -/
theorem byteOfBits_bitsOfByte (b : Byte) : byteOfBits (bitsOfByte b) = b := by
  refine BitVec.eq_of_getLsbD_eq fun i low => ?_
  rw [byteOfBits_eq_flagByte, getLsbD_flagByte (by unfold bitsOfByte; simp)]
  unfold bitsOfByte
  simp [List.getD_eq_getElem?_getD, low]

/-- The receiver between characters, with the characters `chars` in. -/
def betweenCharacters (chars : List Byte) (idle : Nat) : Receiver :=
  { chars := chars, missingStop := false, phase := .between 0, activeRun := 0, idleRun := idle }

/-- A character that is received whole (R2). -/
theorem feed_character (chars : List Byte) (idle : Nat) (b : Byte) :
    ∃ idle', (betweenCharacters chars idle).feed (characterLevels b) = betweenCharacters (chars ++ [b]) idle' := by
  have length : (bitsOfByte b).length = 8 := by unfold bitsOfByte; simp
  have levels : characterLevels b = [.active] ++ (bitsOfByte b).map bitLevel ++ [.idle] := rfl
  have start : (betweenCharacters chars idle).feed [.active] =
      inCharacter (betweenCharacters chars idle) [] 1 0 := rfl
  obtain ⟨active, idle', run, fed⟩ := feed_dataBits (betweenCharacters chars idle) [] (bitsOfByte b) 1 0
    (by rw [length]; exact Nat.le_refl 8) (Nat.le_refl 1)
  refine ⟨idle' + 1, ?_⟩
  rw [levels, Receiver.feed_append, Receiver.feed_append, start, fed, List.nil_append]
  have stop : (inCharacter (betweenCharacters chars idle) (bitsOfByte b) active idle').bit .idle =
      ((inCharacter (betweenCharacters chars idle) (bitsOfByte b) active idle').count .idle).advance .idle :=
    Receiver.bit_of_running rfl (Nat.succ_pos 10)
  rw [Receiver.feed_cons, Receiver.feed_nil, stop]
  have full : ¬ (bitsOfByte b).length < 8 := by omega
  unfold Receiver.advance Receiver.count inCharacter betweenCharacters
  dsimp only
  rw [if_neg full, if_pos rfl, byteOfBits_bitsOfByte]

theorem charactersLevels_cons (b : Byte) (bs : List Byte) :
    charactersLevels (b :: bs) = characterLevels b ++ charactersLevels bs := List.flatMap_cons ..

theorem charactersLevels_append (xs ys : List Byte) :
    charactersLevels (xs ++ ys) = charactersLevels xs ++ charactersLevels ys := List.flatMap_append ..

theorem feed_characters (chars bs : List Byte) (idle : Nat) :
    ∃ idle', (betweenCharacters chars idle).feed (charactersLevels bs) = betweenCharacters (chars ++ bs) idle' := by
  induction bs generalizing chars idle with
  | nil => exact ⟨idle, by rw [List.append_nil]; rfl⟩
  | cons b bs ih =>
    obtain ⟨idle', first⟩ := feed_character chars idle b
    obtain ⟨idle'', rest⟩ := ih (chars ++ [b]) idle'
    refine ⟨idle'', ?_⟩
    rw [charactersLevels_cons, Receiver.feed_append, first, rest, List.append_assoc]
    rfl

/-- The characters received after a start mark. -/
theorem start_feed_characters (bs : List Byte) :
    ∃ idle, Receiver.start.feed (charactersLevels bs) = betweenCharacters bs idle := feed_characters [] bs 2

/-- A whole frame ends by idle with its characters (R4). -/
theorem start_feed_wholeFrame (bs : List Byte) : ∃ idle, Receiver.start.feed (wholeFrame bs) =
    { betweenCharacters bs idle with phase := .endedIdle } := by
  obtain ⟨idle, fed⟩ := start_feed_characters bs
  refine ⟨idle + 3, ?_⟩
  unfold wholeFrame
  rw [Receiver.feed_append, fed]
  rfl

/-! ## A frame read back (R8 to R12) -/

/-- The flag positions and the source of the second byte (12.1). -/
theorem flags_source (a b d : Bool) (x : Station) :
    let n := byteOf (128 * a.toNat + 64 * b.toNat + 32 * d.toNat + x.val)
    n.getLsbD 7 = a ∧ n.getLsbD 6 = b ∧ n.getLsbD 5 = d ∧ n.toNat % 32 = x.val := by
  have low := x.isLt
  dsimp only
  unfold byteOf
  simp only [BitVec.getLsbD_ofNat, BitVec.toNat_ofNat, Nat.testBit_eq_decide_div_mod_eq]
  cases a <;> cases b <;> cases d <;>
    simp only [Bool.toNat_true, Bool.toNat_false, decide_eq_true_eq, decide_eq_false_iff_not, Bool.and_eq_true,
      Bool.and_eq_false_imp] <;> omega

/-- A word of 32 bits is its four bytes (R189). -/
theorem word32_eq_append (r : BitVec 32) : ∃ a b c d : Byte, r = a ++ b ++ c ++ d := by
  refine ⟨r.extractLsb' 24 8, r.extractLsb' 16 8, r.extractLsb' 8 8, r.extractLsb' 0 8,
    BitVec.eq_of_getLsbD_eq fun i low => ?_⟩
  rw [BitVec.getLsbD_append, BitVec.getLsbD_append, BitVec.getLsbD_append, BitVec.getLsbD_extractLsb',
    BitVec.getLsbD_extractLsb', BitVec.getLsbD_extractLsb', BitVec.getLsbD_extractLsb']
  by_cases first : i < 8
  · simp [first]
  · by_cases second : i - 8 < 8
    · have place : 8 + (i - 8) = i := by omega
      simp [first, second, place]
    · by_cases third : i - 8 - 8 < 8
      · have place : 16 + (i - 8 - 8) = i := by omega
        simp [first, second, third, place]
      · have place : 24 + (i - 8 - 8 - 8) = i := by omega
        have fourth : i - 8 - 8 - 8 < 8 := by omega
        simp [first, second, third, fourth, place]

/-- The fields of a frame by the kind code of its first byte, from the bytes behind the second one (12.1). -/
def bodyFrom (code : Nat) (flags : Byte) (rest : List Byte) : FrameBody :=
  match code with
  | 1 => .update (flags.getLsbD 7) (flags.getLsbD 6) (word16 (rest.getD 0 0) (rest.getD 1 0)) (rest.getD 2 0)
      ((rest.drop 4).take (rest.getD 3 0).toNat)
  | 2 => .recallFor (word16 (rest.getD 0 0) (rest.getD 1 0))
  | 3 => .epoch (rest.getD 0 0)
  | 4 => .presence (flags.getLsbD 7) (flags.getLsbD 6) (flags.getLsbD 5)
      (word32 (rest.getD 0 0) (rest.getD 1 0) (rest.getD 2 0) (rest.getD 3 0)) (rest.getD 4 0)
  | _ => .claim (word32 (rest.getD 0 0) (rest.getD 1 0) (rest.getD 2 0) (rest.getD 3 0))

theorem parseFrame_cons {code : Nat} {c : FrameClass} {x : Station} {head flags : Byte} (rest : List Byte)
    (kind : head.toNat = 16 * code + c.val) (source : flags.toNat % 32 = x.val) :
    parseFrame (head :: flags :: rest) = { cls := c, source := x, body := bodyFrom code flags rest } := by
  have low := c.isLt
  have cls : Fin.ofNat 8 (head.toNat % 8) = c := Fin.ext <| by
    show head.toNat % 8 % 8 = c.val
    omega
  have station : Fin.ofNat 32 (flags.toNat % 32) = x := Fin.ext <| by
    show flags.toNat % 32 % 32 = x.val
    rw [source]
    exact Nat.mod_eq_of_lt x.isLt
  have high : head.toNat / 16 = code := by omega
  unfold parseFrame bodyFrom
  simp only [List.getD_cons_zero, List.getD_cons_succ, List.drop_succ_cons, cls, station, high] <;> rfl

/-- The first byte of a frame holds its kind and its class (R8). -/
theorem firstByte_toNat (f : Frame) : (byteOf (16 * f.body.code + f.cls.val)).toNat = 16 * f.body.code + f.cls.val := by
  have code := f.body.code_le
  have cls := f.cls.isLt
  unfold byteOf
  rw [BitVec.toNat_ofNat, Nat.mod_eq_of_lt (by omega)]

/-- The second byte of a frame holds its source below its flags (12.1). -/
theorem secondByte_source (f : Frame) : (byteOf (f.body.flags + f.source.val)).toNat % 32 = f.source.val := by
  have plainFlags := flags_source false false false f.source
  cases body : f.body with
  | update first again topic seq payload =>
    obtain ⟨-, -, -, source⟩ := flags_source first again false f.source
    exact source
  | presence caution defence noEpoch tag last =>
    obtain ⟨-, -, -, source⟩ := flags_source caution defence noEpoch f.source
    exact source
  | recallFor topic =>
    obtain ⟨-, -, -, source⟩ := plainFlags
    exact source
  | epoch number =>
    obtain ⟨-, -, -, source⟩ := plainFlags
    exact source
  | claim tag =>
    obtain ⟨-, -, -, source⟩ := plainFlags
    exact source

theorem fields_update (first again : Bool) (hi lo : Byte) (seq : SeqNo) (payload : List Byte) :
    (FrameBody.update first again (hi ++ lo) seq payload).fields = hi :: lo :: seq :: byteOf payload.length :: payload := by
  show bytes16 (hi ++ lo : BitVec 16).toNat ++ [seq, byteOf payload.length] ++ payload = _
  rw [bytes16_append]
  rfl

theorem fields_recallFor (hi lo : Byte) : (FrameBody.recallFor (hi ++ lo)).fields = [hi, lo] := bytes16_append hi lo

theorem fields_presence (caution defence noEpoch : Bool) (g3 g2 g1 g0 : Byte) (last : SeqNo) :
    (FrameBody.presence caution defence noEpoch (g3 ++ g2 ++ g1 ++ g0) last).fields = [g3, g2, g1, g0, last] :=
  congrArg (· ++ [last]) (bytes32_append g3 g2 g1 g0)

theorem fields_claim (g3 g2 g1 g0 : Byte) : (FrameBody.claim (g3 ++ g2 ++ g1 ++ g0)).fields = [g3, g2, g1, g0] :=
  bytes32_append g3 g2 g1 g0

/-- The fields of each kind are read as they were written (12.1). -/
theorem bodyFrom_fields (b : FrameBody) (x : Station) (check : List Byte)
    (short : ∀ first again topic seq payload, b = .update first again topic seq payload → payload.length ≤ 32) :
    bodyFrom b.code (byteOf (b.flags + x.val)) (b.fields ++ check) = b := by
  cases b with
  | update first again topic seq payload =>
    obtain ⟨hi, lo, rfl⟩ := word_eq_append topic
    obtain ⟨isFirst, isAgain, -, -⟩ := flags_source first again false x
    have low := short _ _ _ _ _ rfl
    have length : (byteOf payload.length).toNat = payload.length := by
      unfold byteOf
      rw [BitVec.toNat_ofNat]
      exact Nat.mod_eq_of_lt (by omega)
    rw [fields_update]
    show FrameBody.update _ _ _ _ ((payload ++ check).take (byteOf payload.length).toNat) = _
    rw [length, List.take_left]
    exact congrArg₂ (fun a b => FrameBody.update a b (hi ++ lo) seq payload) isFirst isAgain
  | presence caution defence noEpoch tag last =>
    obtain ⟨g3, g2, g1, g0, rfl⟩ := word32_eq_append tag
    obtain ⟨isCaution, isDefence, isNoEpoch, -⟩ := flags_source caution defence noEpoch x
    rw [fields_presence]
    refine Eq.trans ?_ (congrArg₂ (fun a b => FrameBody.presence a b noEpoch (g3 ++ g2 ++ g1 ++ g0) last) isCaution isDefence)
    exact congrArg (fun n => FrameBody.presence _ _ n (g3 ++ g2 ++ g1 ++ g0) last) isNoEpoch
  | recallFor topic =>
    obtain ⟨hi, lo, rfl⟩ := word_eq_append topic
    rw [fields_recallFor]
    rfl
  | epoch number => rfl
  | claim tag =>
    obtain ⟨g3, g2, g1, g0, rfl⟩ := word32_eq_append tag
    rw [fields_claim]
    rfl

/-- A frame is read as it was written (12.1). -/
theorem parseFrame_encodeFrame {f : Frame} (sendable : f.sendable) : parseFrame (withCheck (encodeFrame f)) = f := by
  refine (parseFrame_cons _ (firstByte_toNat f) (secondByte_source f)).trans ?_
  refine congrArg (fun body => ({ cls := f.cls, source := f.source, body := body } : Frame))
    (bodyFrom_fields f.body f.source _ fun first again topic seq payload body => ?_)
  obtain ⟨-, short⟩ := sendable
  rw [body] at short
  exact short

theorem firstByteValid_encodeFrame {f : Frame} (allowed : classAllowed f.body.code f.cls.val = true) :
    firstByteValid (byteOf (16 * f.body.code + f.cls.val)) = true := by
  have low := f.cls.isLt
  have value := firstByte_toNat f
  have spare : (byteOf (16 * f.body.code + f.cls.val)).getLsbD 3 = false := by
    unfold BitVec.getLsbD
    rw [value, Nat.testBit_eq_decide_div_mod_eq]
    exact decide_eq_false (by omega)
  have high : (16 * f.body.code + f.cls.val) / 16 = f.body.code := by omega
  have class' : (16 * f.body.code + f.cls.val) % 8 = f.cls.val := by omega
  unfold firstByteValid
  rw [spare, value, high, class', allowed]
  rfl

/-- A frame has the length that its first bytes announce (R8, R12). -/
theorem expectedLength_encodeFrame {f : Frame} (sendable : f.sendable) :
    expectedLength (withCheck (encodeFrame f)) = some (withCheck (encodeFrame f)).length := by
  have low := f.cls.isLt
  have high : ((withCheck (encodeFrame f)).getD 0 0).toNat / 16 = f.body.code := by
    rw [encodeFrame_head_toNat]
    omega
  obtain ⟨-, short⟩ := sendable
  unfold expectedLength
  rw [high]
  cases body : f.body with
  | update first again topic seq payload =>
    rw [body] at short
    have at5 : ((withCheck (encodeFrame f)).getD 5 0) = byteOf payload.length := by
      unfold encodeFrame
      rw [body]
      rfl
    have length : (withCheck (encodeFrame f)).length = 8 + payload.length := by
      rw [withCheck_length]
      unfold encodeFrame
      rw [body]
      simp only [FrameBody.fields, bytes16, List.length_cons, List.length_append, List.length_nil]
      omega
    have value : (byteOf payload.length).toNat = payload.length := by
      unfold byteOf
      rw [BitVec.toNat_ofNat]
      exact Nat.mod_eq_of_lt (by omega)
    show (if 6 ≤ (withCheck (encodeFrame f)).length ∧ ((withCheck (encodeFrame f)).getD 5 0).toNat ≤ 32 then
      some (8 + ((withCheck (encodeFrame f)).getD 5 0).toNat) else none) = _
    rw [at5, length, value]
    exact if_pos ⟨by omega, short⟩
  | presence caution defence noEpoch tag last =>
    unfold encodeFrame
    rw [body]
    rfl
  | recallFor topic =>
    unfold encodeFrame
    rw [body]
    rfl
  | epoch number =>
    unfold encodeFrame
    rw [body]
    rfl
  | claim tag =>
    unfold encodeFrame
    rw [body]
    rfl

/-- The verdict on a frame that has ended by idle with its check (R12). -/
theorem judge_of_checked {rx : Receiver} {covered : List Byte} (ended : rx.phase = .endedIdle) (stop : rx.missingStop = false)
    (chars : rx.chars = withCheck covered) (first : firstByteValid ((withCheck covered).getD 0 0) = true)
    (length : expectedLength (withCheck covered) = some (withCheck covered).length) :
    judge rx = .clean (parseFrame (withCheck covered)) := by
  have count : (withCheck covered).length - 2 = covered.length := by
    rw [withCheck_length]
    omega
  have nonempty : (withCheck covered).isEmpty = false := by
    rw [← Bool.not_eq_true, List.isEmpty_iff]
    intro empty
    have := withCheck_length covered
    rw [empty] at this
    cases this
  have front : (withCheck covered).take covered.length = covered := List.take_left ..
  have back : (withCheck covered).drop covered.length = bytes16 (checkOf covered).toNat := List.drop_left ..
  unfold judge
  rw [ended, stop, chars, first, length, nonempty, count, if_neg nofun, bne_self_eq_false, if_neg nofun]
  dsimp only
  rw [front, back]
  exact if_pos rfl

/-- What one station sends, another receives CLEAN (R2, R8 to R12, R15). -/
theorem judge_sent {f : Frame} (sendable : f.sendable) :
    judge (Receiver.start.feed (wholeFrame (withCheck (encodeFrame f)))) = .clean f := by
  obtain ⟨idle, fed⟩ := start_feed_wholeFrame (withCheck (encodeFrame f))
  rw [fed, judge_of_checked (covered := encodeFrame f) rfl rfl rfl (firstByteValid_encodeFrame sendable.1)
    (expectedLength_encodeFrame sendable), parseFrame_encodeFrame sendable]

/-- Settles O16: `judge_sent`, and the layouts of 12.1. -/
theorem sentFrameIsReceivedClean : Obligations.SentFrameIsReceivedClean := by
  refine ⟨fun f => judge_sent, fun c x t1 t0 g3 g2 g1 g0 seq a b d payload => ⟨?_, ?_, ?_, ?_, ?_⟩,
    fun covered hi lo => withCheck_eq, fun bs => rfl, rfl, fun b bs => ?_⟩
  · exact congrArg (fun fields => _ :: _ :: fields) (fields_update a b t1 t0 seq payload)
  · exact congrArg₂ (fun n fields => _ :: byteOf n :: fields) (Nat.zero_add x.val) (fields_recallFor t1 t0)
  · exact congrArg (fun n => _ :: byteOf n :: [seq]) (Nat.zero_add x.val)
  · exact congrArg (fun fields => _ :: _ :: fields) (fields_presence a b d g3 g2 g1 g0 seq)
  · exact congrArg₂ (fun n fields => _ :: byteOf n :: fields) (Nat.zero_add x.val) (fields_claim g3 g2 g1 g0)
  · rw [charactersLevels_cons]
    unfold characterLevels bitsOfByte
    rw [List.map_map, List.append_assoc]
    rfl

end Sys2Proof.Machine
end

section
/-! The matching walk (4.3, 4.4), and HEADER_COMPLETE (R13). -/

namespace Sys2Proof.Machine

/-! ## Whether an entry matches (R69) -/

theorem masked_eq_iff {w : Nat} (x y mask : BitVec w) :
    x &&& mask = y &&& mask ↔ ∀ n : Nat, mask.getLsbD n = true → x.getLsbD n = y.getLsbD n := by
  refine ⟨fun same n set => ?_, fun same => BitVec.eq_of_getLsbD_eq fun n _ => ?_⟩
  · have bit := congrArg (fun v => v.getLsbD n) same
    simpa [set] using bit
  · rw [BitVec.getLsbD_and, BitVec.getLsbD_and]
    cases set : mask.getLsbD n with
    | true => rw [same n set]
    | false => rw [Bool.and_false, Bool.and_false]

/-- An entry that R69 accepts. -/
theorem accepts_iff (e : SubEntry) (quota : QueueNo → Nat) (h : Header) : e.accepts quota h = true ↔
    e.state = .active ∧ (∀ n : Nat, e.mask.getLsbD n = true → h.topic.getLsbD n = e.value.getLsbD n) ∧
      (e.source = none ∨ e.source = some h.source) ∧ (h.own = true → e.acceptSelf = true) ∧
      ∀ q, e.target = .queue q → 0 < quota q := by
  have source : (match e.source with | none => true | some x => x == h.source) = true ↔
      e.source = none ∨ e.source = some h.source := by
    cases e.source <;> simp
  have own : (!h.own || e.acceptSelf) = true ↔ (h.own = true → e.acceptSelf = true) := by
    cases h.own <;> simp
  have target : (match e.target with | .slot _ => true | .queue q => decide (0 < quota q)) = true ↔
      ∀ q, e.target = .queue q → 0 < quota q := by
    cases e.target <;> simp
  unfold SubEntry.accepts
  rw [Bool.and_eq_true, Bool.and_eq_true, Bool.and_eq_true, Bool.and_eq_true, beq_iff_eq, beq_iff_eq, masked_eq_iff, and_assoc,
    and_assoc, and_assoc]
  exact and_congr Iff.rfl (and_congr Iff.rfl (and_congr source (and_congr own target)))

/-! ## Whether a queue has room (R71) -/

theorem noRoom_of_spilled {s : State} {q : QueueNo} {reason : OverflowReason} {before after : List (QueueNo × OverflowReason)}
    (spilled : s.accept.plan.spilled = before ++ (q, reason) :: after) (first : ∀ m ∈ before, m.1 ≠ q) :
    noRoom s q = some reason := by
  have found : s.accept.plan.spilled.find? (fun m => m.1 == q) = some (q, reason) := by
    rw [spilled, List.find?_append, List.find?_eq_none.mpr fun m listed => by simpa using first m listed]
    simp
  unfold noRoom
  rw [found]

/-- Where nothing spilled into the queue, its quota and the pool say whether it has room. -/
theorem noRoom_of_unspilled {s : State} {q : QueueNo} (unspilled : ∀ m ∈ s.accept.plan.spilled, m.1 ≠ q) :
    noRoom s q = if quotaOf s q ≤ (s.store.queues[q]).cells then some .quota
      else if s.store.free = 0 then some .pool else none := by
  have absent : s.accept.plan.spilled.find? (fun m => m.1 == q) = none :=
    List.find?_eq_none.mpr fun m listed => by simpa using unspilled m listed
  unfold noRoom
  rw [absent]
  rfl

theorem noRoom_of_room {s : State} {q : QueueNo} (unspilled : ∀ m ∈ s.accept.plan.spilled, m.1 ≠ q)
    (within : (s.store.queues[q]).cells < quotaOf s q) (free : 0 < s.store.free) : noRoom s q = none := by
  rw [noRoom_of_unspilled unspilled, if_neg (Nat.not_le.mpr within), if_neg (Nat.pos_iff_ne_zero.mp free)]

theorem noRoom_of_full {s : State} {q : QueueNo} {reason : OverflowReason}
    (full : (∃ before after, s.accept.plan.spilled = before ++ (q, reason) :: after ∧ ∀ m ∈ before, m.1 ≠ q) ∨
      ((∀ m ∈ s.accept.plan.spilled, m.1 ≠ q) ∧
        ((reason = .quota ∧ quotaOf s q ≤ (s.store.queues[q]).cells) ∨
          (reason = .pool ∧ (s.store.queues[q]).cells < quotaOf s q ∧ s.store.free = 0)))) :
    noRoom s q = some reason := by
  obtain ⟨before, after, spilled, first⟩ | ⟨unspilled, ⟨rfl, beyond⟩ | ⟨rfl, within, empty⟩⟩ := full
  · exact noRoom_of_spilled spilled first
  · rw [noRoom_of_unspilled unspilled, if_pos beyond]
  · rw [noRoom_of_unspilled unspilled, if_neg (Nat.not_le.mpr within), if_pos empty]

/-! ## A visit, case by case (R69 to R73) -/

section Visit

variable {h : Header} {s : State} {i : SubIndex}

theorem visit_of_unmatched (unmatched : (s.accept.table[i]).accepts (quotaOf s) h = false) : visit h s i = (s, true) :=
  if_neg fun matched => Bool.false_ne_true (unmatched.symm.trans matched)

theorem reserved_any_iff (rs : List Reserved) (t : Target) :
    (rs.any fun r => r.target == t) = true ↔ ∃ r ∈ rs, r.target = t := by
  simp [List.any_eq_true]

theorem visit_of_shared (matched : (s.accept.table[i]).accepts (quotaOf s) h = true)
    (shared : ∃ r ∈ s.accept.plan.targets, r.target = (s.accept.table[i]).target) :
    visit h s i = (shareTarget s i (s.accept.table[i]).target, (s.accept.table[i]).keepOn) :=
  (if_pos matched).trans (if_pos ((reserved_any_iff _ _).mpr shared))

/-- A matching entry whose target is not reserved yet. -/
theorem visit_of_unreserved (matched : (s.accept.table[i]).accepts (quotaOf s) h = true)
    (new : ∀ r ∈ s.accept.plan.targets, r.target ≠ (s.accept.table[i]).target) :
    visit h s i =
      match (s.accept.table[i]).target with
      | .slot _ => (reserveTarget s i (s.accept.table[i]).target, (s.accept.table[i]).keepOn)
      | .queue q =>
        match noRoom s q with
        | none => (reserveTarget s i (s.accept.table[i]).target, (s.accept.table[i]).keepOn)
        | some reason => (missTarget s q reason (s.accept.table[i]).spill, (s.accept.table[i]).spill) :=
  (if_pos matched).trans (if_neg fun any => (reserved_any_iff _ _).mp any |>.elim fun r hr => new r hr.1 hr.2)

end Visit

/-! ### What a visit does to the list (R70, R72) -/

/-- An entry engaged, with the list given. -/
def Engaged (s : State) (i : SubIndex) (targets : List Reserved) (t : State) : Prop :=
  t.accept.plan = { s.accept.plan with targets := targets } ∧
  t.accept.table[i] = { s.accept.table[i] with engaged := true } ∧
  ∀ j : SubIndex, j ≠ i → t.accept.table[j] = s.accept.table[j]

/-- A cell moved from the pool into a queue's reservation (R89). -/
def CellReserved (s : State) (q : QueueNo) (t : State) : Prop :=
  t.store.free = s.store.free - 1 ∧ t.store.slots = s.store.slots ∧
  t.store.queues[q] = { s.store.queues[q] with reserved := true } ∧
  ∀ q' : QueueNo, q' ≠ q → t.store.queues[q'] = s.store.queues[q']

theorem engage_spec (s : State) (i : SubIndex) (targets : List Reserved) :
    let t := engage (setPlan s { s.accept.plan with targets := targets }) i
    t = { s with accept := t.accept } ∧ Engaged s i targets t :=
  ⟨rfl, rfl, upd_getElem_self _ _ _, fun _ other => upd_getElem_of_ne _ _ other.symm⟩

theorem shareTarget_spec (s : State) (i : SubIndex) (t : Target) :
    shareTarget s i t = { s with accept := (shareTarget s i t).accept } ∧
    Engaged s i (s.accept.plan.targets.map fun r => if r.target = t then { r with sharers := r.sharers ++ [i] } else r)
      (shareTarget s i t) :=
  engage_spec s i _

theorem reserveTarget_slot_spec (s : State) (i : SubIndex) (k : SlotNo) :
    reserveTarget s i (.slot k) = { s with accept := (reserveTarget s i (.slot k)).accept } ∧
    Engaged s i (s.accept.plan.targets ++ [{ target := .slot k, reserver := i, sharers := [] }])
      (reserveTarget s i (.slot k)) :=
  engage_spec s i _

theorem reserveTarget_queue_spec (s : State) (i : SubIndex) (q : QueueNo) :
    let t := reserveTarget s i (.queue q)
    t = { s with accept := t.accept, store := t.store } ∧
    t.accept.plan = { s.accept.plan with
      targets := s.accept.plan.targets ++ [{ target := .queue q, reserver := i, sharers := [] }] } ∧
    t.accept.table[i] = { s.accept.table[i] with engaged := true } ∧
    (∀ j : SubIndex, j ≠ i → t.accept.table[j] = s.accept.table[j]) ∧ CellReserved s q t := by
  obtain ⟨-, plan, entry, others⟩ := engage_spec s i
    (s.accept.plan.targets ++ [{ target := .queue q, reserver := i, sharers := [] }])
  exact ⟨rfl, plan, entry, others, rfl, rfl, upd_getElem_self _ _ _, fun _ other => upd_getElem_of_ne _ _ other.symm⟩

theorem visit_of_slot {h : Header} {s : State} {i : SubIndex} {k : SlotNo}
    (matched : (s.accept.table[i]).accepts (quotaOf s) h = true)
    (new : ∀ r ∈ s.accept.plan.targets, r.target ≠ (s.accept.table[i]).target) (target : (s.accept.table[i]).target = .slot k) :
    visit h s i = (reserveTarget s i (.slot k), (s.accept.table[i]).keepOn) := by
  rw [visit_of_unreserved matched new, target]

theorem visit_of_queue {h : Header} {s : State} {i : SubIndex} {q : QueueNo}
    (matched : (s.accept.table[i]).accepts (quotaOf s) h = true)
    (new : ∀ r ∈ s.accept.plan.targets, r.target ≠ (s.accept.table[i]).target) (target : (s.accept.table[i]).target = .queue q)
    (unspilled : ∀ m ∈ s.accept.plan.spilled, m.1 ≠ q) (within : (s.store.queues[q]).cells < quotaOf s q)
    (free : 0 < s.store.free) :
    visit h s i = (reserveTarget s i (.queue q), (s.accept.table[i]).keepOn) := by
  rw [visit_of_unreserved matched new, target]
  dsimp only
  rw [noRoom_of_room unspilled within free]

theorem visit_of_full {h : Header} {s : State} {i : SubIndex} {q : QueueNo} {reason : OverflowReason}
    (matched : (s.accept.table[i]).accepts (quotaOf s) h = true)
    (new : ∀ r ∈ s.accept.plan.targets, r.target ≠ (s.accept.table[i]).target) (target : (s.accept.table[i]).target = .queue q)
    (full : noRoom s q = some reason) :
    visit h s i = (missTarget s q reason (s.accept.table[i]).spill, (s.accept.table[i]).spill) := by
  rw [visit_of_unreserved matched new, target]
  dsimp only
  rw [full]

/-! ## The walk (R68) -/

theorem walk_cons (h : Header) (i : SubIndex) (is : List SubIndex) (s : State) :
    walk h (i :: is) s = if (visit h s i).2 then walk h is (visit h s i).1 else (visit h s i).1 := rfl

/-- The walk passes over entries that do not match. -/
theorem walk_append_of_unmatched {h : Header} {s : State} (before after : List SubIndex)
    (unmatched : ∀ i ∈ before, (s.accept.table[i]).accepts (quotaOf s) h = false) :
    walk h (before ++ after) s = walk h after s := by
  induction before with
  | nil => rfl
  | cons i before ih =>
    rw [List.cons_append, walk_cons, visit_of_unmatched (unmatched i List.mem_cons_self), if_pos rfl]
    exact ih fun j listed => unmatched j (List.mem_cons_of_mem i listed)

theorem walk_of_unmatched {h : Header} {s : State} (is : List SubIndex)
    (unmatched : ∀ i ∈ is, (s.accept.table[i]).accepts (quotaOf s) h = false) : walk h is s = s := by
  rw [← List.append_nil is, walk_append_of_unmatched is [] unmatched]
  rfl

theorem finRange_split {n : Nat} (i : Fin n) :
    ∃ before after, List.finRange n = before ++ i :: after ∧ ∀ j ∈ before, j < i := by
  obtain ⟨before, after, split⟩ := List.append_of_mem (List.mem_finRange i)
  have ordered := List.pairwise_lt_finRange n
  rw [split, List.pairwise_append] at ordered
  obtain ⟨-, -, across⟩ := ordered
  exact ⟨before, after, split, fun j listed => across j listed i List.mem_cons_self⟩

/-- The walk ends at the lowest matching entry, when that one does not let it go on. -/
theorem walk_of_lowest {h : Header} {s t : State} {i : SubIndex}
    (unmatched : ∀ j : SubIndex, j < i → (s.accept.table[j]).accepts (quotaOf s) h = false)
    (visited : visit h s i = (t, false)) : walk h (List.finRange 32) s = t := by
  obtain ⟨before, after, split, lower⟩ := finRange_split i
  rw [split, walk_append_of_unmatched before _ fun j listed => unmatched j (lower j listed), walk_cons, visited]
  exact if_neg Bool.false_ne_true

/-! ## HEADER_COMPLETE (R13, R16) -/

theorem openedFrame_of_inFrame {s : State} {r : Reception} (receiving : s.line.receive = .inFrame r) :
    Machine.openedFrame s = some (r, s) := by
  simp only [Machine.openedFrame, receiving]

/-- A header that arrives without a mismatch. -/
theorem headerComplete_of_arrived {s : State} {r : Reception} {levels : List LineLevel} (receiving : s.line.receive = .inFrame r)
    (quiet : frameMismatch s r levels = none) (arrived : headerArrived (r.rx.feed levels) = true) (new : r.headerSeen = false) :
    headerComplete levels s = headerEvent s { r with heard := r.heard + levels.length } (r.rx.feed levels) := by
  have event : (headerArrived (r.rx.feed levels) && !r.headerSeen) = true := by
    rw [arrived, new]
    rfl
  simp only [headerComplete, openedFrame_of_inFrame receiving, quiet, collideAt_none]
  exact if_pos event

/-- The first characters of a frame show no mismatch in the attempt that sends them, nor outside an attempt (R16). -/
theorem frameMismatch_of_sent {s : State} {own : Bool} {bs : List Byte} {r : Reception} (isOwn : r.own = own) (start : r.heard = 0)
    (sent : own = true → s.access.inFlight = none ∨ s.line.send.isJamming = true ∨
      ∃ f rest, s.access.inFlight = some f ∧ f.covered = bs ++ rest) :
    frameMismatch s r (charactersLevels bs) = none := by
  unfold frameMismatch
  rw [isOwn, start]
  cases own with
  | false => rfl
  | true =>
    refine (if_pos rfl).trans ?_
    unfold echoMismatch
    by_cases compares : comparing s = true
    · obtain ⟨flying, sending⟩ := (comparing_iff s).mp compares
      obtain landed | jamming | ⟨f, rest, flight, covered⟩ := sent rfl
      · exact absurd landed flying
      · exact absurd (sending.symm.trans jamming) Bool.false_ne_true
      · have driven : (frameLevels (sentBytes s)).drop (8 + 0) =
            charactersLevels bs ++ charactersLevels (rest ++ bytes16 (checkOf f.covered).toNat) := by
          rw [sentBytes_of_flight flight, ← charactersLevels_append, ← List.append_assoc, ← covered]
          rfl
        rw [if_pos compares, driven, firstDifference_of_prefix]
        rfl
    · exact if_neg compares

theorem firstByteValid_update {cls : Nat} (low : 1 ≤ cls) (high : cls ≤ 6) :
    firstByteValid (byteOf (16 + cls)) = true ∧ (byteOf (16 + cls)).toNat = 16 + cls := by
  interval_cases cls <;> exact ⟨rfl, rfl⟩

/-- The receiver when the six bytes of an UPDATE's header are in, and the header that it holds (R13). -/
theorem header_received {cls : Nat} (low : 1 ≤ cls) (high : cls ≤ 6) (source t1 t0 seq len : Byte) (short : len.toNat ≤ 32)
    (own : Bool) :
    let rx := Receiver.start.feed (charactersLevels [byteOf (16 + cls), source, t1, t0, seq, len])
    headerArrived rx = true ∧ headerOf own rx =
      {
        own := own, cls := Fin.ofNat 8 cls, source := Fin.ofNat 32 (source.toNat % 32), first := source.getLsbD 7,
        again := source.getLsbD 6, topic := t1 ++ t0, seq := seq, length := len.toNat } := by
  obtain ⟨idle, fed⟩ := start_feed_characters [byteOf (16 + cls), source, t1, t0, seq, len]
  obtain ⟨valid, value⟩ := firstByteValid_update low high
  dsimp only
  rw [fed]
  constructor
  · show (true && true && true && firstByteValid (byteOf (16 + cls)) && (byteOf (16 + cls)).toNat / 16 == 1
      && decide (len.toNat ≤ 32)) = true
    have kind : (16 + cls) / 16 = 1 := by omega
    rw [valid, value, kind, decide_eq_true short]
    rfl
  · have class' : Fin.ofNat 8 ((byteOf (16 + cls)).toNat % 8) = Fin.ofNat 8 cls := Fin.ext <| by
      show (byteOf (16 + cls)).toNat % 8 % 8 = cls % 8
      rw [value]
      omega
    exact congrArg (fun c => ({
        own := own, cls := c, source := Fin.ofNat 32 (source.toNat % 32), first := source.getLsbD 7,
        again := source.getLsbD 6, topic := t1 ++ t0, seq := seq, length := len.toNat } : Header)) class'

/-- The state in which the walk of the header starts. -/
def headerNoted (own : Bool) (rx : Receiver) (s : State) : State :=
  { s with
    line := { s.line with receive := .inFrame { own := own, headerSeen := true, heard := 60, rx := rx } },
    accept := { s.accept with plan := Plan.empty } }

/-- HEADER_COMPLETE of an UPDATE just opened is the walk from an empty list (R13, R68). -/
theorem exec_headerComplete_of_opened {s : State} {own : Bool} {cls : Nat} {source t1 t0 seq len : Byte} {h : Header}
    (running : s.held = false) (opened : s.line.receive = justOpened own) (low : 1 ≤ cls) (high : cls ≤ 6)
    (short : len.toNat ≤ 32)
    (sent : own = true → s.access.inFlight = none ∨ s.line.send.isJamming = true ∨
      ∃ f rest, s.access.inFlight = some f ∧ f.covered = byteOf (16 + cls) :: source :: t1 :: t0 :: seq :: len :: rest)
    (header : h = {
      own := own, cls := Fin.ofNat 8 cls, source := Fin.ofNat 32 (source.toNat % 32), first := source.getLsbD 7,
      again := source.getLsbD 6, topic := t1 ++ t0, seq := seq, length := len.toNat }) :
    ∃ rx, exec (.headerComplete (charactersLevels [byteOf (16 + cls), source, t1, t0, seq, len])) s = .next
      (walk h (List.finRange 32) (headerNoted own rx s)) := by
  obtain ⟨arrived, read⟩ := header_received low high source t1 t0 seq len short own
  have quiet := frameMismatch_of_sent (s := s) (r := { own := own, headerSeen := false, heard := 0, rx := Receiver.start })
    (bs := [byteOf (16 + cls), source, t1, t0, seq, len]) rfl rfl sent
  have event := headerComplete_of_arrived opened quiet arrived rfl
  have count : 0 + (charactersLevels [byteOf (16 + cls), source, t1, t0, seq, len]).length = 60 := by
    rw [charactersLevels_length]
    rfl
  generalize charactersLevels [byteOf (16 + cls), source, t1, t0, seq, len] = levels at event arrived read count
  refine ⟨Receiver.start.feed levels, ?_⟩
  have executed : exec (.headerComplete levels) s = .next (headerComplete levels s) :=
    congrArg Host.Outcome.next (whenRunning_running s _ running)
  rw [executed, event, header, ← read]
  refine congrArg (fun n => Host.Outcome.next (headerEvent s
    { own := own, headerSeen := false, heard := n, rx := Receiver.start } (Receiver.start.feed levels))) count

/-- A matching entry whose queue is full (R73). -/
theorem visit_missed (s : State) (h : Header) (i : SubIndex) (matched : (s.accept.table[i]).accepts (quotaOf s) h = true)
    (new : ∀ r ∈ s.accept.plan.targets, r.target ≠ (s.accept.table[i]).target) {q : QueueNo} {reason : OverflowReason}
    (target : (s.accept.table[i]).target = .queue q) (full : noRoom s q = some reason) :
    ((s.accept.table[i]).spill = true → visit h s i =
      ({ s with accept := { s.accept with
          plan := { s.accept.plan with spilled := s.accept.plan.spilled ++ [(q, reason)] } } }, true)) ∧
    ((s.accept.table[i]).spill = false → visit h s i =
      ({ s with accept := { s.accept with plan := { s.accept.plan with overflow := some (q, reason) } } }, false)) := by
  have missed := visit_of_full matched new target full
  refine ⟨fun spills => ?_, fun stops => ?_⟩
  · rw [missed, spills]
    rfl
  · rw [missed, stops]
    rfl

/-- Settles O15: HEADER_COMPLETE is the walk from an empty list, and the walk visits as R69 to R73 say. -/
theorem headerCompleteReservesACell : Obligations.HeaderCompleteReservesACell := by
  refine ⟨fun s own cls source t1 t0 seq len h running opened low high short sent header => ?_,
    fun s h i => ⟨walk_cons h i |> fun cons is => cons is s, accepts_iff _ _ _, visit_of_unmatched, fun matched =>
      ⟨fun shared => ⟨_, visit_of_shared matched shared, shareTarget_spec s i _⟩, fun new =>
        ⟨fun k target => ⟨_, visit_of_slot matched new target, reserveTarget_slot_spec s i k⟩,
          fun q target unspilled within free =>
            ⟨_, visit_of_queue matched new target unspilled within free, reserveTarget_queue_spec s i q⟩,
          fun q reason target full => visit_missed s h i matched new target (noRoom_of_full full)⟩⟩⟩⟩
  obtain ⟨rx, event⟩ := exec_headerComplete_of_opened running opened low high short sent header
  refine ⟨⟨rx, event⟩, fun unmatched => ⟨rx, event.trans (congrArg Host.Outcome.next
    (walk_of_unmatched (s := headerNoted own rx s) _ fun i _ => unmatched i))⟩,
    fun i q unmatched matched target ends within free => ?_⟩
  have visited : visit h (headerNoted own rx s) i = (reserveTarget (headerNoted own rx s) i (.queue q), false) :=
    (visit_of_queue (s := headerNoted own rx s) matched (fun r listed => absurd listed List.not_mem_nil) target
      (fun m listed => absurd listed List.not_mem_nil) within free).trans (congrArg _ ends)
  exact ⟨rx, _, event.trans (congrArg Host.Outcome.next (walk_of_lowest unmatched visited)),
    reserveTarget_queue_spec (headerNoted own rx s) i q⟩

end Sys2Proof.Machine
end

section
/-! A frame that reaches no target (R22, R81, R82, R84, R91). -/

namespace Sys2Proof.Machine

/-! ## What the walk and the release of a frame leave as it is -/

/-- The tables of the Acceptance Unit and the Message Store, engagements and reservations left out. -/
structure Unreserved (s t : State) : Prop where
  table : ∀ i : SubIndex, { t.accept.table[i] with engaged := false } = { s.accept.table[i] with engaged := false }
  queues : ∀ q : QueueNo, { t.store.queues[q] with reserved := false } = { s.store.queues[q] with reserved := false }
  slots : t.store.slots = s.store.slots

namespace Unreserved

variable {s t u : State}

theorem of_same (accept : t.accept.table = s.accept.table) (store : t.store = s.store) : Unreserved s t :=
  ⟨fun i => by rw [accept], fun q => by rw [store], by rw [store]⟩

theorem refl (s : State) : Unreserved s s := of_same rfl rfl

theorem trans (h : Unreserved s t) (h' : Unreserved t u) : Unreserved s u :=
  ⟨fun i => (h'.table i).trans (h.table i), fun q => (h'.queues q).trans (h.queues q), h'.slots.trans h.slots⟩

theorem of_engaged {i : SubIndex} {targets : List Reserved} (engaged : Engaged s i targets t)
    (queues : ∀ q : QueueNo, { t.store.queues[q] with reserved := false } = { s.store.queues[q] with reserved := false })
    (slots : t.store.slots = s.store.slots) : Unreserved s t := by
  obtain ⟨-, entry, others⟩ := engaged
  refine ⟨fun j => ?_, queues, slots⟩
  by_cases same : j = i
  · rw [same, entry]
  · rw [others j same]

/-- A queue of which the reservation alone changes. -/
theorem queues_of_upd {q : QueueNo} {b : Bool} (queues : t.store.queues = upd s.store.queues q fun x => { x with reserved := b })
    (p : QueueNo) : { t.store.queues[p] with reserved := false } = { s.store.queues[p] with reserved := false } := by
  rw [queues, upd_getElem]
  split
  · rename_i same
    rw [← same]
  · rfl

end Unreserved

/-- A visit leaves the state, or it shares a target, or reserves one that is not in the list, or misses one. -/
theorem visit_cases {P : State → Prop} (h : Header) (s : State) (i : SubIndex) (unmatched : P s)
    (shared : ∀ t, P (shareTarget s i t))
    (slot : ∀ k, (∀ r ∈ s.accept.plan.targets, r.target ≠ .slot k) → P (reserveTarget s i (.slot k)))
    (queue : ∀ q, (∀ r ∈ s.accept.plan.targets, r.target ≠ .queue q) → noRoom s q = none → P (reserveTarget s i (.queue q)))
    (missed : ∀ q reason spill, P (missTarget s q reason spill)) : P (visit h s i).1 := by
  cases matched : (s.accept.table[i]).accepts (quotaOf s) h with
  | false =>
    rw [visit_of_unmatched matched]
    exact unmatched
  | true =>
    by_cases listed : ∃ r ∈ s.accept.plan.targets, r.target = (s.accept.table[i]).target
    · rw [visit_of_shared matched listed]
      exact shared _
    · have new : ∀ r ∈ s.accept.plan.targets, r.target ≠ (s.accept.table[i]).target := fun r reserved same =>
        listed ⟨r, reserved, same⟩
      cases target : (s.accept.table[i]).target with
      | slot k =>
        rw [visit_of_slot matched new target]
        exact slot k fun r reserved => target ▸ new r reserved
      | queue q =>
        cases room : noRoom s q with
        | none =>
          have visited : visit h s i = (reserveTarget s i (.queue q), (s.accept.table[i]).keepOn) := by
            rw [visit_of_unreserved matched new, target]
            dsimp only
            rw [room]
          rw [visited]
          exact queue q (fun r reserved => target ▸ new r reserved) room
        | some reason =>
          rw [visit_of_full matched new target room]
          exact missed q reason _

/-- A property that every visit keeps is kept by the walk. -/
theorem walk_keeps {P : State → Prop} (h : Header) (keeps : ∀ s i, P s → P (visit h s i).1) (is : List SubIndex) {s : State}
    (holds : P s) : P (walk h is s) := by
  induction is generalizing s with
  | nil => exact holds
  | cons i is ih =>
    rw [walk_cons]
    split
    · exact ih (keeps s i holds)
    · exact keeps s i holds

theorem visit_unreserved (h : Header) (s : State) (i : SubIndex) : Unreserved s (visit h s i).1 := by
  refine visit_cases h s i (.refl s) (fun t => ?_) (fun k _ => ?_) (fun q _ _ => ?_) fun q reason spill => .of_same rfl rfl
  · exact .of_engaged (shareTarget_spec s i t).2 (fun _ => rfl) rfl
  · exact .of_engaged (reserveTarget_slot_spec s i k).2 (fun _ => rfl) rfl
  · obtain ⟨-, plan, entry, others, -⟩ := reserveTarget_queue_spec s i q
    exact .of_engaged ⟨plan, entry, others⟩ (Unreserved.queues_of_upd (q := q) (b := true) rfl) rfl

theorem walk_unreserved {s u : State} (h : Header) (is : List SubIndex) (kept : Unreserved s u) :
    Unreserved s (walk h is u) :=
  walk_keeps (P := Unreserved s) h (fun t i kept => kept.trans (visit_unreserved h t i)) is kept

/-- The reservation list names exactly the reservations, and the cells number `n`. -/
def Reserves (n : Nat) (s : State) : Prop :=
  HoldsFor s.accept.plan.targets s ∧ s.store.free + s.store.cellsUsed = n

theorem visit_reserves {n : Nat} (h : Header) (s : State) (i : SubIndex) (reserves : Reserves n s) :
    Reserves n (visit h s i).1 := by
  obtain ⟨held, count⟩ := reserves
  refine visit_cases h s i ⟨held, count⟩ (fun t => ⟨?_, count⟩) (fun k new => ⟨?_, count⟩) (fun q new room => ⟨?_, ?_⟩)
    fun q reason spill => ⟨?_, count⟩
  · rw [shareTarget_targets]
    exact HoldsFor.map (fun r => by split <;> rfl) (held.of_same rfl)
  · exact (held.of_same rfl).append_slot new
  · exact held.append_queue new rfl
  · have unreserved : (s.store.queues[q]).reserved = false := by
      rw [← Bool.not_eq_true, held.2 q]
      rintro ⟨r, listed, target⟩
      exact new r listed target
    have counted : (reserveTarget s i (.queue q)).store.cellsUsed + (s.store.queues[q]).cells =
        s.store.cellsUsed + ({ s.store.queues[q] with reserved := true } : ReceiveQueue).cells :=
      MessageStore.cellsUsed_upd (f := fun x => { x with reserved := true }) rfl
    have before : (s.store.queues[q]).cells = (s.store.queues[q]).records.length := by
      unfold ReceiveQueue.cells
      rw [unreserved]
      rfl
    have after : ({ s.store.queues[q] with reserved := true } : ReceiveQueue).cells =
        (s.store.queues[q]).records.length + 1 := rfl
    have taken : (reserveTarget s i (.queue q)).store.free = s.store.free - 1 := rfl
    obtain ⟨-, free⟩ := noRoom_none room
    omega
  · unfold missTarget
    dsimp only
    split <;> exact held.of_same rfl

theorem walk_reserves {n : Nat} (h : Header) (is : List SubIndex) {s : State} (reserves : Reserves n s) :
    Reserves n (walk h is s) :=
  walk_keeps h (fun t i => visit_reserves h t i) is reserves

/-! ## The frame released (R81, R82, R91) -/

theorem releaseTarget_unreserved (s : State) (t : Target) : Unreserved s (releaseTarget s t) := by
  cases t with
  | slot k => exact .refl s
  | queue q => exact ⟨fun i => rfl, Unreserved.queues_of_upd (q := q) (b := false) rfl, rfl⟩

theorem releaseAll_unreserved (rs : List Reserved) (s : State) :
    Unreserved s (rs.foldl (fun s r => releaseTarget s r.target) s) := by
  induction rs generalizing s with
  | nil => exact .refl s
  | cons r rs ih => exact (releaseTarget_unreserved s r.target).trans (ih _)

theorem closeFrame_table (s : State) : (closeFrame s).accept.table =
    tabMap (fun e => if e.state = .withdrawing then SubEntry.initial else { e with engaged := false }) s.accept.table := by
  unfold closeFrame
  rw [setAccept_accept]

theorem closeFrame_entry (s : State) (i : SubIndex) : (closeFrame s).accept.table[i] =
    if (s.accept.table[i]).state = .withdrawing then SubEntry.initial else { s.accept.table[i] with engaged := false } :=
  congrArg (fun v : Vector SubEntry 32 => v[i]) (closeFrame_table s) |>.trans (tabMap_getElem _ _ _)

/-- An entry after the frame is closed (R82). -/
theorem closedEntry_congr {e e' : SubEntry} (same : { e' with engaged := false } = { e with engaged := false }) :
    (if e'.state = .withdrawing then SubEntry.initial else { e' with engaged := false }) =
      if e.state = .withdrawing then SubEntry.initial else { e with engaged := false } := by
  have state : e'.state = e.state := (congrArg SubEntry.state same :)
  by_cases withdrawing : e.state = .withdrawing
  · rw [if_pos withdrawing, if_pos (state.trans withdrawing)]
  · rw [if_neg withdrawing, if_neg fun other => withdrawing (state.symm.trans other), same]

/-- The frame closed with its reservations given back (R81, R82). -/
def FrameReleased (s t : State) : Prop :=
  t.accept.plan = Plan.empty ∧ (∀ i : SubIndex, (t.accept.table[i]).engaged = false) ∧
  ∀ i : SubIndex, t.accept.table[i] =
    if (s.accept.table[i]).state = .withdrawing then SubEntry.initial else { s.accept.table[i] with engaged := false }

theorem releaseFrame_released {s u : State} (kept : Unreserved s u) : FrameReleased s (releaseFrame u) := by
  have entry : ∀ i : SubIndex, (releaseFrame u).accept.table[i] =
      if (s.accept.table[i]).state = .withdrawing then SubEntry.initial
      else { s.accept.table[i] with engaged := false } := fun i =>
    (closeFrame_entry _ i).trans (closedEntry_congr ((kept.trans (releaseAll_unreserved _ u)).table i))
  refine ⟨releaseFrame_plan u, fun i => ?_, entry⟩
  rw [entry i]
  split <;> rfl

theorem releaseFrame_store (s : State) :
    (releaseFrame s).store = (s.accept.plan.targets.foldl (fun s r => releaseTarget s r.target) s).store :=
  closeFrame_store _

/-- What stands in the queues and the slots, reservations left out. -/
def StoreKept (s t : State) : Prop :=
  (∀ q : QueueNo, { t.store.queues[q] with reserved := false } = { s.store.queues[q] with reserved := false }) ∧
  t.store.slots = s.store.slots

theorem releaseFrame_storeKept {s u : State} (kept : Unreserved s u) : StoreKept s (releaseFrame u) := by
  have all := kept.trans (releaseAll_unreserved u.accept.plan.targets u)
  exact ⟨fun q => by rw [releaseFrame_store]; exact all.queues q, by rw [releaseFrame_store]; exact all.slots⟩

/-- Every cell that was reserved is free again (R91). -/
def CellsFreed (s t : State) : Prop :=
  t.accept.plan = Plan.empty ∧ (∀ q : QueueNo, (t.store.queues[q]).reserved = false) ∧
  t.store.free = s.store.free + s.store.reservedCells

theorem cellsFreed_of_count {s t : State} (kept : StoreKept s t) (plan : t.accept.plan = Plan.empty) (none : HoldsFor [] t)
    (count : t.store.free + t.store.cellsUsed = s.store.free + s.store.cellsUsed) : CellsFreed s t := by
  have stored : t.store.storedCells = s.store.storedCells :=
    Finset.sum_congr rfl fun q _ => (congrArg (fun x : ReceiveQueue => x.records.length) (kept.1 q) :)
  have reserved := MessageStore.reservedCells_of_none (m := t.store) fun q => none.none q
  rw [MessageStore.cellsUsed_eq_add, MessageStore.cellsUsed_eq_add, stored, reserved] at count
  exact ⟨plan, fun q => none.none q, by omega⟩

/-! ## A header within the levels of the frame end (R13, log 2) -/

/-- The header arrives within the levels. -/
def headerArrives (r : Receiver) (levels : List LineLevel) : Prop :=
  ∃ n, n < levels.length ∧ headerArrived (r.feed (levels.take (n + 1))) = true

theorem headerWithin_isSome (r : Receiver) (levels : List LineLevel) :
    (r.headerWithin levels).isSome = true ↔ headerArrives r levels := by
  induction levels generalizing r with
  | nil => exact ⟨nofun, fun ⟨n, low, _⟩ => absurd low (Nat.not_lt_zero n)⟩
  | cons l ls ih =>
    unfold Receiver.headerWithin
    cases first : headerArrived (r.bit l) with
    | true => exact ⟨fun _ => ⟨0, Nat.succ_pos _, first⟩, fun _ => rfl⟩
    | false =>
      rw [if_neg Bool.false_ne_true, ih]
      refine ⟨fun ⟨n, low, arrived⟩ => ⟨n + 1, Nat.succ_lt_succ low, arrived⟩, fun ⟨n, low, arrived⟩ => ?_⟩
      cases n with
      | zero => exact absurd (first.symm.trans arrived) Bool.false_ne_true
      | succ n => exact ⟨n, Nat.lt_of_succ_lt_succ low, arrived⟩

/-- The header of a frame was complete before its end, or within the levels of it, or never (R13, R84, log 2). -/
theorem impliedHeader_cases (levels : List LineLevel) (s : State) (r : Reception) :
    (r.headerSeen = true ∧ impliedHeader levels s r = (s, true)) ∨
    (r.headerSeen = false ∧ headerArrives r.rx levels ∧ ∃ rx, impliedHeader levels s r = (headerEvent s r rx, true)) ∨
    (r.headerSeen = false ∧ ¬ headerArrives r.rx levels ∧ impliedHeader levels s r = (s, false)) := by
  unfold impliedHeader
  cases seen : r.headerSeen with
  | true => exact .inl ⟨rfl, if_pos rfl⟩
  | false =>
    rw [if_neg Bool.false_ne_true, ← headerWithin_isSome]
    cases within : r.rx.headerWithin levels with
    | some rx => exact .inr (.inl ⟨rfl, rfl, rx, rfl⟩)
    | none => exact .inr (.inr ⟨rfl, nofun, rfl⟩)

theorem headerEvent_unreserved (s : State) (r : Reception) (rx : Receiver) : Unreserved s (headerEvent s r rx) := by
  unfold headerEvent matchingWalk
  exact walk_unreserved _ _ (.of_same rfl rfl)

theorem headerEvent_reserves {n : Nat} {s : State} (r : Reception) (rx : Receiver) (none : HoldsFor [] s)
    (count : s.store.free + s.store.cellsUsed = n) : Reserves n (headerEvent s r rx) :=
  walk_reserves (headerOf r.own rx) _ ⟨none.of_same rfl, count⟩

theorem headerEvent_eq (s : State) (r : Reception) (rx : Receiver) :
    ∃ receive, headerEvent s r rx = { s with
      line := { s.line with receive := receive }, accept := (headerEvent s r rx).accept,
      store := (headerEvent s r rx).store } :=
  ⟨_, walk_eq _ _ _⟩

theorem impliedHeader_eq (levels : List LineLevel) (s : State) (r : Reception) :
    ∃ receive, (impliedHeader levels s r).1 = { s with
      line := { s.line with receive := receive }, accept := (impliedHeader levels s r).1.accept,
      store := (impliedHeader levels s r).1.store } := by
  obtain ⟨-, implied⟩ | ⟨-, -, rx, implied⟩ | ⟨-, -, implied⟩ := impliedHeader_cases levels s r
  · rw [implied]
    exact ⟨s.line.receive, rfl⟩
  · rw [implied]
    exact headerEvent_eq s r rx
  · rw [implied]
    exact ⟨s.line.receive, rfl⟩

/-! ## The frame dropped (R81, R82, R84) -/

theorem dropFrame_eq (seen : Bool) (s : State) : dropFrame seen s = { s with
    accept := (dropFrame seen s).accept, store := (dropFrame seen s).store } := by
  unfold dropFrame
  split
  · have released := releaseFrame_eq s
    generalize releaseFrame s = t at released ⊢
    exact released
  · rfl

/-- What the end of a frame that reaches no target does to the Acceptance Unit and the Message Store. -/
def Dropped (s : State) (r : Reception) (levels : List LineLevel) (t : State) : Prop :=
  (planFits s → CellsFreed s t) ∧
  (r.headerSeen = true ∨ headerArrives r.rx levels → FrameReleased s t) ∧
  (r.headerSeen = false → ¬ headerArrives r.rx levels → t.accept = s.accept ∧ t.store = s.store) ∧
  StoreKept s t

theorem Dropped.of_same {s t u : State} {r : Reception} {levels : List LineLevel} (h : Dropped s r levels t)
    (accept : u.accept = t.accept) (store : u.store = t.store) : Dropped s r levels u := by
  unfold Dropped CellsFreed FrameReleased StoreKept at h ⊢
  rw [accept, store]
  exact h

/-- A frame with a header is released. -/
theorem releaseFrame_dropped {s u : State} {r : Reception} {levels : List LineLevel} (kept : Unreserved s u)
    (reserves : planFits s → Reserves (s.store.free + s.store.cellsUsed) u)
    (header : r.headerSeen = true ∨ headerArrives r.rx levels) : Dropped s r levels (releaseFrame u) := by
  have store := releaseFrame_storeKept kept
  refine ⟨fun fits => ?_, fun _ => releaseFrame_released kept, fun unseen never => ?_, store⟩
  · obtain ⟨held, count⟩ := reserves fits
    obtain ⟨plan, none, pool⟩ := releaseFrame_closed held
    exact cellsFreed_of_count store plan none (pool.cells.trans count)
  · obtain seen | arrives := header
    · exact absurd (unseen.symm.trans seen) Bool.false_ne_true
    · exact absurd arrives never

/-- Before its header a frame has reserved nothing. -/
theorem planFits.holdsNone {s : State} {r : Reception} (fits : planFits s) (receiving : s.line.receive = .inFrame r)
    (unseen : r.headerSeen = false) : s.accept.plan = Plan.empty ∧ HoldsFor [] s := by
  obtain ⟨distinct, holds, listed⟩ := fits
  have empty : s.accept.plan = Plan.empty := by
    by_contra filled
    obtain ⟨r', receiving', seen⟩ := listed filled
    rw [receiving] at receiving'
    cases receiving'
    exact Bool.false_ne_true (unseen.symm.trans seen)
  rw [empty] at distinct holds
  exact ⟨empty, distinct, holds⟩

theorem dropFrame_dropped {s u : State} {r : Reception} {levels : List LineLevel} (receiving : s.line.receive = .inFrame r)
    (accept : u.accept = (impliedHeader levels s r).1.accept) (store : u.store = (impliedHeader levels s r).1.store) :
    Dropped s r levels (dropFrame (impliedHeader levels s r).2 u) := by
  obtain ⟨seen, implied⟩ | ⟨unseen, arrives, rx, implied⟩ | ⟨unseen, never, implied⟩ := impliedHeader_cases levels s r
  · rw [implied] at accept store ⊢
    refine releaseFrame_dropped (.of_same (by rw [accept]) store) (fun fits => ⟨?_, by rw [store]⟩) (.inl seen)
    rw [accept]
    exact HoldsFor.of_same (by rw [store]) ⟨fits.1, fits.2.1⟩
  · rw [implied] at accept store ⊢
    refine releaseFrame_dropped ((headerEvent_unreserved s r rx).trans (.of_same (by rw [accept]) store)) (fun fits => ?_)
      (.inr arrives)
    obtain ⟨held, count⟩ := headerEvent_reserves r rx (fits.holdsNone receiving unseen).2 rfl
    refine ⟨?_, by rw [store]; exact count⟩
    rw [accept]
    exact held.of_same (by rw [store])
  · rw [implied] at accept store ⊢
    refine ⟨fun fits => ?_, fun header => ?_, fun _ _ => ⟨accept, store⟩, fun q => ?_, ?_⟩
    · obtain ⟨empty, none⟩ := fits.holdsNone receiving unseen
      exact cellsFreed_of_count (t := u) ⟨fun q => by rw [store], by rw [store]⟩ (accept ▸ empty) (none.of_same (by rw [store]))
        (by rw [store])
    · obtain seen | arrives := header
      · exact absurd (unseen.symm.trans seen) Bool.false_ne_true
      · exact absurd arrives never
    · exact congrArg (fun m : MessageStore => ({ m.queues[q] with reserved := false } : ReceiveQueue)) store
    · exact congrArg MessageStore.slots store

end Sys2Proof.Machine
end

section
/-! FRAME_END of a frame that reaches no target (R14, R22, R34, R81). -/

namespace Sys2Proof.Machine

/-! ## FRAME_END in a frame (R14, R16) -/

theorem exec_frameEnd_of_running {s : State} (running : s.held = false) (levels : List LineLevel) :
    exec (.frameEnd levels) s = .next (frameEnd levels s) :=
  congrArg Host.Outcome.next (whenRunning_running s _ running)

theorem frameEnd_of_ended {s : State} {r : Reception} {levels : List LineLevel} (receiving : s.line.receive = .inFrame r)
    (ended : (r.rx.feed levels).ended = true) :
    frameEnd levels s = endFrame levels r (r.rx.feed levels) (collideAt (endMismatch s r levels) s) := by
  simp only [frameEnd, openedFrame_of_inFrame receiving]
  exact if_pos ended

theorem frameEnd_of_open {s : State} {r : Reception} {levels : List LineLevel} (receiving : s.line.receive = .inFrame r)
    (goesOn : (r.rx.feed levels).ended = false) : frameEnd levels s =
      if (endMismatch s r levels).isSome then collideAt (endMismatch s r levels) s else s := by
  simp only [frameEnd, openedFrame_of_inFrame receiving]
  exact if_neg fun ended => Bool.false_ne_true (goesOn.symm.trans ended)

/-- A foreign frame shows no mismatch, and after a collision nothing is compared (R16). -/
theorem endMismatch_of_uncompared {s : State} {r : Reception} (levels : List LineLevel)
    (uncompared : r.own = false ∨ comparing s = false) : endMismatch s r levels = none := by
  have quiet : frameMismatch s r levels = none := by
    unfold frameMismatch echoMismatch
    obtain foreign | stopped := uncompared
    · rw [foreign]
      rfl
    · rw [stopped]
      split <;> rfl
  have silent : (r.own && comparing s && (r.rx.feed levels).ended && !endsAsSent s (r.rx.feed levels)) = false := by
    obtain foreign | stopped := uncompared
    · rw [foreign]
      rfl
    · rw [stopped, Bool.and_false]
      rfl
  simp only [endMismatch, quiet, silent]
  rfl

/-- A frame that is not CLEAN, or that ends after the collision of its attempt, is BROKEN or has failed (R12, R16). -/
theorem outcomeOf_damaged {s : State} {r : Reception} {rx : Receiver}
    (damaged : (r.own = true ∧ comparing s = false) ∨ ∀ f, judge rx ≠ .clean f) :
    (outcomeOf s r rx = .broken ∧ ¬ (judge rx = .malformed ∨ judge rx = .checkFailed)) ∨
      ((outcomeOf s r rx = .malformed ∨ outcomeOf s r rx = .checkFailed) ∧
        ¬ (judge rx = .broken ∨ ∃ f, judge rx = .clean f)) := by
  unfold outcomeOf
  cases judged : judge rx with
  | clean f =>
    obtain ⟨own, collided⟩ | bad := damaged
    · refine .inl ⟨if_pos ?_, by rintro (no | no) <;> cases no⟩
      rw [own, collided]
      rfl
    · exact absurd judged (bad f)
  | broken => exact .inl ⟨rfl, by rintro (no | no) <;> cases no⟩
  | malformed => exact .inr ⟨.inl rfl, by rintro (no | ⟨f, no⟩) <;> cases no⟩
  | checkFailed => exact .inr ⟨.inr rfl, by rintro (no | ⟨f, no⟩) <;> cases no⟩

/-! ## The end of a damaged frame (R4, R14, R22, R34) -/

/-- The line after a frame has ended (R4, R5). -/
def closedLine (s : State) (rx : Receiver) : LineInterface :=
  { s.line with
    receive := .betweenFrames,
    level := if rx.phase = .endedIdle then .idle else .active,
    gap := if rx.phase = .endedIdle then some (rx.idleRun * lineBit s) else none }

theorem closeReception_impliedHeader (levels : List LineLevel) (s : State) (r : Reception) (rx : Receiver) :
    closeReception (impliedHeader levels s r).1 rx = { s with
      line := closedLine s rx, accept := (impliedHeader levels s r).1.accept,
      store := (impliedHeader levels s r).1.store } := by
  obtain ⟨receive, implied⟩ := impliedHeader_eq levels s r
  generalize (impliedHeader levels s r).1 = u at implied ⊢
  rw [implied]
  rfl

theorem leaveAfterFrame_of_damaged {o : FrameOutcome} (own : Bool) (damaged : ∀ f, o ≠ .clean f) (s : State) :
    leaveAfterFrame own o s = s := by
  unfold leaveAfterFrame
  split
  · exact absurd rfl (damaged _)
  · rfl

/-- The state after the end of a frame that reaches no target. -/
def damagedEnd (s : State) (rx : Receiver) (accept : AcceptanceUnit) (store : MessageStore) (access : AccessController)
    (port : HostPort) : State :=
  { s with line := closedLine s rx, accept := accept, store := store, access := access, port := port }

/-- The end of a frame that is BROKEN (R22). -/
theorem endFrame_of_broken {s : State} {r : Reception} {levels : List LineLevel} (rx : Receiver)
    (receiving : s.line.receive = .inFrame r) (broken : outcomeOf s r rx = .broken) :
    ∃ accept store b, endFrame levels r rx s = damagedEnd s rx accept store
        { s.access with bases := Vector.replicate 8 31, booking := b } s.port ∧
      Dropped s r levels (endFrame levels r rx s) ∧ SettledBooking s (endFrame levels r rx s) := by
  have closed := closeReception_impliedHeader levels s r rx
  have ended : endFrame levels r rx s =
      settleBooking (dropFrame (impliedHeader levels s r).2 (resetBases (closeReception (impliedHeader levels s r).1 rx))) := by
    unfold endFrame
    dsimp only
    rw [broken, leaveAfterFrame_of_damaged (o := .broken) _ nofun]
    rfl
  have dropped := dropFrame_dropped (levels := levels) (u := resetBases (closeReception (impliedHeader levels s r).1 rx))
    receiving (by rw [closed]; rfl) (by rw [closed]; rfl)
  have same := dropFrame_eq (impliedHeader levels s r).2 (resetBases (closeReception (impliedHeader levels s r).1 rx))
  rw [ended]
  generalize dropFrame _ _ = u at same dropped ⊢
  rw [closed] at same
  obtain ⟨b, booked, settled⟩ := settleBooking_with (s := s) (u := u) (by rw [same]; rfl) (by rw [same]; rfl) (by rw [same]; rfl)
  rw [booked]
  refine ⟨u.accept, u.store, b, ?_, dropped.of_same rfl rfl, settled⟩
  rw [same]
  rfl

/-- The end of a frame that is MALFORMED or CHECK_FAILED (R34). -/
theorem endFrame_of_failed {s : State} {r : Reception} {levels : List LineLevel} (rx : Receiver)
    (receiving : s.line.receive = .inFrame r)
    (failed : outcomeOf s r rx = .malformed ∨ outcomeOf s r rx = .checkFailed) :
    ∃ accept store b, endFrame levels r rx s = damagedEnd s rx accept store
        { s.access with
          score := min 255 (s.access.score + 1), standing := nextStanding s.access.standing (min 255 (s.access.score + 1)),
          booking := b }
        (postAll s (standingNotices s.access.standing
          (nextStanding s.access.standing (min 255 (s.access.score + 1))))).port ∧
      Dropped s r levels (endFrame levels r rx s) ∧ SettledBooking s (endFrame levels r rx s) := by
  have closed := closeReception_impliedHeader levels s r rx
  have ended : endFrame levels r rx s = settleBooking
      ((raiseScore (dropFrame (impliedHeader levels s r).2 (closeReception (impliedHeader levels s r).1 rx)) 1).done) := by
    unfold endFrame
    dsimp only
    rw [leaveAfterFrame_of_damaged _ (by obtain failed | failed := failed <;> rw [failed] <;> exact nofun)]
    obtain failed | failed := failed <;> rw [failed] <;> rfl
  have dropped := dropFrame_dropped (levels := levels) (u := closeReception (impliedHeader levels s r).1 rx)
    receiving (by rw [closed]) (by rw [closed])
  have same := dropFrame_eq (impliedHeader levels s r).2 (closeReception (impliedHeader levels s r).1 rx)
  rw [ended]
  generalize dropFrame _ _ = u at same dropped ⊢
  rw [closed] at same
  have access : u.access = s.access := by rw [same]
  rw [done_def, raiseScore_fst, raiseScore_snd, access]
  obtain ⟨b, booked, settled⟩ := settleBooking_postAll (s := s) (r := s)
    (u := u.setAccess { s.access with
      score := min 255 (s.access.score + 1), standing := nextStanding s.access.standing (min 255 (s.access.score + 1)) })
    (by rw [same]; rfl) (by rw [same]; rfl) rfl rfl rfl
    (standingNotices s.access.standing (nextStanding s.access.standing (min 255 (s.access.score + 1))))
  rw [booked]
  refine ⟨u.accept, u.store, b, ?_, dropped.of_same rfl rfl, settled⟩
  rw [same]
  rfl

/-! ## The two outcomes together -/

theorem StoreKept.records {s t : State} (kept : StoreKept s t) (q : QueueNo) :
    (t.store.queues[q]).records = (s.store.queues[q]).records ∧
    (t.store.queues[q]).dropped = (s.store.queues[q]).dropped ∧
    (t.store.queues[q]).overflow = (s.store.queues[q]).overflow ∧
    (t.store.queues[q]).lastReason = (s.store.queues[q]).lastReason := by
  have same := kept.1 q
  injection same with records _ overflow dropped reason
  exact ⟨records, dropped, overflow, reason⟩

theorem headerArrives_of_never {r : Receiver} {levels : List LineLevel}
    (never : ∀ n, n < levels.length → headerArrived (r.feed (levels.take (n + 1))) = false) : ¬ headerArrives r levels :=
  fun ⟨n, low, arrived⟩ => Bool.false_ne_true ((never n low).symm.trans arrived)

/-- Settles O19: the frame's end is `endFrame` with no collision; BROKEN and the two failures differ in the score. -/
theorem damagedFrameReachesNoTarget : Obligations.DamagedFrameReachesNoTarget := by
  intro s levels r running receiving ended damaged
  have uncompared : r.own = false ∨ comparing s = false :=
    damaged.imp (fun foreign => foreign.1) fun own => (not_comparing_iff s).mpr own.2
  have next := exec_frameEnd_of_running running levels
  rw [frameEnd_of_ended receiving ended, endMismatch_of_uncompared levels uncompared, collideAt_none] at next
  refine ⟨_, next, ?_⟩
  obtain ⟨broken, verdict⟩ | ⟨failed, verdict⟩ := outcomeOf_damaged (rx := r.rx.feed levels)
    (damaged.symm.imp (fun own => ⟨own.1, (not_comparing_iff s).mpr own.2⟩) fun foreign => foreign.2)
  · obtain ⟨accept, store, b, same, ⟨freed, released, untouched, kept⟩, settled⟩ :=
      endFrame_of_broken (r.rx.feed levels) receiving broken
    generalize endFrame levels r (r.rx.feed levels) s = t at same freed released untouched kept settled
    subst same
    exact ⟨rfl, settled, freed, released, fun unseen never => untouched unseen (headerArrives_of_never never), kept.records,
      kept.2, rfl, rfl, rfl, rfl, rfl, rfl, rfl, fun _ => ⟨fun c => Vector.getElem_replicate _, rfl, rfl⟩,
      fun failed => absurd failed verdict⟩
  · obtain ⟨accept, store, b, same, ⟨freed, released, untouched, kept⟩, settled⟩ :=
      endFrame_of_failed (r.rx.feed levels) receiving failed
    generalize endFrame levels r (r.rx.feed levels) s = t at same freed released untouched kept settled
    subst same
    exact ⟨rfl, settled, freed, released, fun unseen never => untouched unseen (headerArrives_of_never never), kept.records,
      kept.2, rfl, rfl, rfl, rfl, rfl, rfl, rfl, fun other => absurd other verdict,
      fun _ => ⟨rfl, rfl, nextStanding_row _ _, rfl⟩⟩

end Sys2Proof.Machine
end

section
/-! COLLISION, and the collision of an own frame in reception (R16, R31). -/

namespace Sys2Proof.Machine

/-! ## The first difference (R16) -/

theorem firstDifference_eq_some_iff (ds rs : List LineLevel) (m : Nat) : firstDifference ds rs = some m ↔
    (∃ d r, ds[m]? = some d ∧ rs[m]? = some r ∧ d ≠ r) ∧
    ∀ k, k < m → ∀ d r, ds[k]? = some d → rs[k]? = some r → d = r := by
  induction ds generalizing rs m with
  | nil => exact ⟨nofun, fun ⟨⟨d, r, at', _⟩, _⟩ => nomatch at'⟩
  | cons d ds ih =>
    cases rs with
    | nil => exact ⟨nofun, fun ⟨⟨d, r, _, at', _⟩, _⟩ => nomatch at'⟩
    | cons r rs =>
      unfold firstDifference
      by_cases same : d = r
      · rw [if_pos same]
        cases m with
        | zero =>
          refine ⟨fun found => ?_, fun ⟨⟨d', r', driven, received, differ⟩, _⟩ => ?_⟩
          · cases rest : firstDifference ds rs <;> rw [rest] at found <;> cases found
          · cases driven
            cases received
            exact absurd same differ
        | succ m =>
          have shifted : (firstDifference ds rs).map (· + 1) = some (m + 1) ↔ firstDifference ds rs = some m := by
            cases firstDifference ds rs <;> simp
          rw [shifted, ih]
          refine and_congr Iff.rfl ⟨fun before k low d' r' driven received => ?_,
            fun before k low d' r' driven received => before (k + 1) (Nat.succ_lt_succ low) d' r' driven received⟩
          cases k with
          | zero =>
            cases driven
            cases received
            exact same
          | succ k => exact before k (Nat.lt_of_succ_lt_succ low) d' r' driven received
      · rw [if_neg same]
        refine ⟨fun found => ?_, fun ⟨_, before⟩ => ?_⟩
        · cases found
          exact ⟨⟨d, r, rfl, rfl, same⟩, fun k low => absurd low (Nat.not_lt_zero k)⟩
        · cases m with
          | zero => rfl
          | succ m => exact absurd (before 0 (Nat.succ_pos m) d r rfl rfl) same

/-! ## The own start mark (R16, log 2) -/

/-- The own start mark shows no mismatch with what is driven. -/
theorem echoMismatch_mark (s : State) : echoMismatch s 0 (activityLevels 6 2) = none := by
  unfold echoMismatch
  split
  · have driven : (frameLevels (sentBytes s)).drop 0 = activityLevels 6 2 ++ charactersLevels (sentBytes s) := rfl
    rw [driven, firstDifference_of_prefix]
    rfl
  · rfl

/-- The line before an implied start mark. -/
def beforeMark (s : State) : State := s.setLine { s.line with markCut := false, markHeard := 0 }

theorem impliedMark_of_between {s : State} (between : s.line.receive = .betweenFrames) :
    impliedMark s = activityNoted 6 2 .startMark none (beforeMark s) := by
  have noted := lineActivity_of_awaiting (s := beforeMark s) (run := 6) (idle := 2) (a := .startMark) rfl (.inr between)
  have quiet : echoMismatch (beforeMark s) (beforeMark s).line.markHeard (activityLevels 6 2) = none :=
    echoMismatch_mark (beforeMark s)
  rw [quiet, collideAt_none] at noted
  exact noted

theorem impliedMark_receive {s : State} (between : s.line.receive = .betweenFrames) :
    (impliedMark s).line.receive = justOpened (comparing s) := by
  rw [impliedMark_of_between between]
  exact (activityNoted_of_opening (s := beforeMark s) (m := none) 6 2
    ((opensFrame_iff (beforeMark s) .startMark).mpr ⟨rfl, between, rfl⟩) rfl).1

theorem ownMark_of_receiving {s : State} (received : List LineLevel) (m : Nat) (busy : s.line.receive ≠ .betweenFrames) :
    ownMark received (some m) s = s := by
  unfold ownMark
  split
  · rename_i between
    exact absurd between busy
  · rfl

theorem ownMark_of_early {s : State} {m : Nat} (received : List LineLevel) (between : s.line.receive = .betweenFrames)
    (early : m < 8) : ownMark received (some m) s =
      s.setLine { s.line with markCut := (received.drop m).all (· == .active) } := by
  simp only [ownMark, between]
  exact if_neg (Nat.not_le.mpr early)

theorem ownMark_of_late {s : State} {m : Nat} (received : List LineLevel) (between : s.line.receive = .betweenFrames)
    (late : 8 ≤ m) : ownMark received (some m) s = impliedMark s := by
  simp only [ownMark, between]
  exact if_pos late

/-- The mark changes the line, and what a start mark does to the booking. -/
theorem ownMark_eq (received : List LineLevel) (m : Nat) (s : State) :
    ∃ slotTime booking, ownMark received (some m) s = { s with
        line := (ownMark received (some m) s).line,
        access := { s.access with slotTime := slotTime, booking := booking } } ∧
      (ownMark received (some m) s).line.rate = s.line.rate ∧ (ownMark received (some m) s).line.clock = s.line.clock := by
  by_cases between : s.line.receive = .betweenFrames
  · by_cases late : 8 ≤ m
    · obtain ⟨state, line⟩ := activityNoted_eq 6 2 .startMark none (beforeMark s)
      rw [ownMark_of_late received between late, impliedMark_of_between between]
      generalize activityNoted 6 2 .startMark none (beforeMark s) = u at state line ⊢
      refine ⟨none, none, state, ?_, ?_⟩
      · rw [line]
        rfl
      · rw [line]
        rfl
    · rw [ownMark_of_early received between (Nat.not_le.mp late)]
      exact ⟨s.access.slotTime, s.access.booking, rfl, rfl, rfl⟩
  · rw [ownMark_of_receiving received m between]
    exact ⟨s.access.slotTime, s.access.booking, rfl, rfl, rfl⟩

/-! ## COLLISION (R31) -/

theorem exec_collision_of_running {s : State} (running : s.held = false) (received : List LineLevel) :
    exec (.collision received) s = .next (collision received s) :=
  congrArg Host.Outcome.next (whenRunning_running s _ running)

theorem exec_collision_of_mismatch {s : State} {f : Flight} {received : List LineLevel} {m : Nat} (running : s.held = false)
    (flying : s.access.inFlight = some f) (mismatch : echoMismatch s 0 received = some m) :
    ∃ b, exec (.collision received) s = .next (collided f (ownMark received (some m) s) b) ∧
      Collided s (collided f (ownMark received (some m) s) b) f := by
  have next := exec_collision_of_running running received
  unfold collision at next
  dsimp only at next
  obtain ⟨slotTime, booking, marked, rate, clock⟩ := ownMark_eq received m s
  have flying' : (ownMark received (some m) s).access.inFlight = some f := by
    rw [marked]
    exact flying
  rw [mismatch, collideAt_some flying'] at next
  obtain ⟨b, collision, -, dropped⟩ := collide_collided flying'
  rw [collision] at next
  exact ⟨b, next, collided_spec rate clock (by rw [marked]) (by rw [marked]) flying' (by rw [marked]) (by rw [marked]) dropped⟩

theorem all_active_iff (levels : List LineLevel) : levels.all (· == .active) = true ↔ ∀ l ∈ levels, l = .active := by
  simp [List.all_eq_true]

/-- What the collision of an attempt whose start mark has not been accepted leaves, and what it opens (R16). -/
theorem collided_ownMark {s : State} {m : Nat} (received : List LineLevel) (f : Flight) (b : Option (Fin 256)) :
    let t := collided f (ownMark received (some m) s) b
    (s.line.receive ≠ .betweenFrames ∨ m < 8 →
      t = { s with line := { s.line with send := .jamming (24 * lineBit s), markCut := t.line.markCut },
                   access := t.access, pubs := { s.pubs with items := t.pubs.items }, port := t.port } ∧
      t.access.slotTime = s.access.slotTime) ∧
    (s.line.receive ≠ .betweenFrames → t.line.markCut = s.line.markCut) ∧
    (s.line.receive = .betweenFrames → m < 8 → (t.line.markCut = true ↔ ∀ l ∈ received.drop m, l = .active)) ∧
    (s.line.receive = .betweenFrames → 8 ≤ m → t.line.receive = justOpened (comparing s)) := by
  dsimp only
  refine ⟨fun unmarked => ?_, fun busy => ?_, fun between early => ?_, fun between late => ?_⟩
  · by_cases between : s.line.receive = .betweenFrames
    · rw [ownMark_of_early received between (unmarked.resolve_left fun busy => busy between)]
      exact ⟨rfl, rfl⟩
    · rw [ownMark_of_receiving received m between]
      exact ⟨rfl, rfl⟩
  · rw [ownMark_of_receiving received m busy]
    rfl
  · rw [ownMark_of_early received between early]
    exact all_active_iff _
  · rw [ownMark_of_late received between late]
    exact impliedMark_receive between

/-! ## The own frame in reception (R16) -/

theorem frameMismatch_of_own (s : State) {r : Reception} (levels : List LineLevel) (own : r.own = true) :
    frameMismatch s r levels = echoMismatch s (8 + r.heard) levels := if_pos own

theorem endMismatch_of_mismatch {s : State} {r : Reception} {levels : List LineLevel} {m : Nat}
    (mismatch : frameMismatch s r levels = some m) : endMismatch s r levels = some m := by
  simp only [endMismatch, mismatch]

/-- An own frame that does not end as it was sent (R16, log 27). -/
theorem endMismatch_isSome {s : State} {r : Reception} {levels : List LineLevel} (own : r.own = true)
    (compares : comparing s = true) (ended : (r.rx.feed levels).ended = true)
    (other : echoMismatch s (8 + r.heard) levels ≠ none ∨ endsAsSent s (r.rx.feed levels) = false) :
    ∃ m, endMismatch s r levels = some m := by
  cases mismatch : frameMismatch s r levels with
  | some m => exact ⟨m, endMismatch_of_mismatch mismatch⟩
  | none =>
    rw [frameMismatch_of_own s levels own] at mismatch
    have differs := other.resolve_left fun found => found mismatch
    have late : (r.own && comparing s && (r.rx.feed levels).ended && !endsAsSent s (r.rx.feed levels)) = true := by
      rw [own, compares, ended, differs]
      rfl
    rw [← frameMismatch_of_own s levels own] at mismatch
    refine ⟨(frameLevels (sentBytes s)).length, ?_⟩
    simp only [endMismatch, mismatch]
    exact if_pos late

theorem not_endsAsSent {s : State} {f : Flight} {rx : Receiver} (flying : s.access.inFlight = some f)
    (other : rx.phase = .endedJam ∨ rx.missingStop = true ∨ rx.chars ≠ withCheck f.covered) : endsAsSent s rx = false := by
  unfold endsAsSent
  rw [sentBytes_of_flight flying]
  obtain jam | missing | chars := other
  · rw [jam]
    rfl
  · rw [missing, Bool.not_true, Bool.and_false, Bool.false_and]
  · rw [beq_eq_false_iff_ne.mpr chars, Bool.and_false]

/-- The collision that a header event shows (R13, R16). -/
theorem headerComplete_of_mismatch {s : State} {f : Flight} {r : Reception} {levels : List LineLevel} {m : Nat}
    (receiving : s.line.receive = .inFrame r) (flying : s.access.inFlight = some f)
    (mismatch : frameMismatch s r levels = some m) :
    headerComplete levels s = if headerArrived (r.rx.feed levels) && !r.headerSeen then
      headerEvent (collide f s) { r with heard := r.heard + levels.length } (r.rx.feed levels) else collide f s := by
  simp only [headerComplete, openedFrame_of_inFrame receiving, mismatch, collideAt_some flying] <;> rfl

theorem collide_spec {s : State} {f : Flight} (flying : s.access.inFlight = some f) : Collided s (collide f s) f := by
  obtain ⟨b, collision, -, dropped⟩ := collide_collided flying
  rw [collision]
  exact collided_spec rfl rfl rfl rfl flying rfl rfl dropped

theorem headerEvent_collided {s u : State} {f : Flight} (h : Collided s u f) (r : Reception) (rx : Receiver) :
    Collided s (headerEvent u r rx) f := by
  obtain ⟨receive, event⟩ := headerEvent_eq u r rx
  generalize headerEvent u r rx = t at event ⊢
  refine h.of_same ?_ ?_ ?_ ?_ ?_ <;> rw [event]

/-- The end of a damaged own frame leaves its collision as it was, but for the score (R31, R34). -/
theorem endFrame_of_collided {s u : State} {f : Flight} {r : Reception} {levels : List LineLevel} (h : Collided s u f)
    (receiving : u.line.receive = .inFrame r) (own : r.own = true) :
    let t := endFrame levels r (r.rx.feed levels) u
    t.line.receive = .betweenFrames ∧ t.line.send = .jamming (24 * lineBit s) ∧ t.access.inFlight = some f ∧
    (∀ c : FrameClass, t.access.bases[c] = 31) ∧
    t.pubs.items = (s.pubs.items.map fun it =>
      if it.kind = f.kind then { it with attempts := it.attempts + 1 } else it) ∧
    ((∃ fr, judge (r.rx.feed levels) = .clean fr) ∨ judge (r.rx.feed levels) = .broken → Collided s t f) ∧
    (judge (r.rx.feed levels) = .malformed ∨ judge (r.rx.feed levels) = .checkFailed →
      t.access.score = min 255 (s.access.score + 9)) := by
  obtain ⟨send, bases, score, row, port, flight, -, pubs⟩ := h
  have items := congrArg PublicationUnit.items pubs
  have stopped : comparing u = false := (not_comparing_iff u).mpr (.inr (by rw [send]; rfl))
  dsimp only
  obtain ⟨broken, verdict⟩ | ⟨failed, verdict⟩ := outcomeOf_damaged (s := u) (rx := r.rx.feed levels) (.inl ⟨own, stopped⟩)
  · obtain ⟨accept, store, b, same, -, settled⟩ := endFrame_of_broken (r.rx.feed levels) receiving broken
    generalize endFrame levels r (r.rx.feed levels) u = t at same settled
    obtain ⟨dropped, -⟩ := settled
    subst same
    have reset : ∀ c : FrameClass, (Vector.replicate 8 (31 : Station))[c] = 31 := fun c => Vector.getElem_replicate _
    exact ⟨rfl, send, flight, reset, items, fun _ => ⟨send, reset, score, row, port, flight, dropped, pubs⟩,
      fun failed => absurd failed verdict⟩
  · obtain ⟨accept, store, b, same, -, -⟩ := endFrame_of_failed (r.rx.feed levels) receiving failed
    generalize endFrame levels r (r.rx.feed levels) u = t at same
    subst same
    refine ⟨rfl, send, flight, bases, items, fun other => absurd other.symm verdict, fun _ => ?_⟩
    show min 255 (u.access.score + 1) = _
    omega

/-- Settles O11: COLLISION and the events of an own frame with a mismatch are `collide`, and the end of the frame leaves the
collision as it is. -/
theorem collisionJamsAndScores : Obligations.CollisionJamsAndScores := by
  intro s n f running sending flying
  have driving : s.line.send.isJamming = false := by
    rw [sending]
    rfl
  have compares : comparing s = true := (comparing_iff s).mpr ⟨by rw [flying]; exact nofun, driving⟩
  have spec := collide_spec flying
  have receive : (collide f s).line.receive = s.line.receive := by rw [collide_eq]
  refine ⟨fun received m => ?_, fun received m mismatch => ?_, fun received quiet => ?_,
    fun levels r m receiving own mismatch => ?_, fun levels r receiving own ended other => ?_⟩
  · rw [echoMismatch_zero flying driving]
    exact firstDifference_eq_some_iff _ _ m
  · obtain ⟨b, next, hit⟩ := exec_collision_of_mismatch running flying mismatch
    have marked := collided_ownMark (s := s) (m := m) received f b
    rw [compares] at marked
    exact ⟨_, next, hit, marked⟩
  · rw [exec_collision_of_running running, collision_of_none quiet]
  · rw [← frameMismatch_of_own s levels own] at mismatch
    refine ⟨?_, fun goesOn => ?_⟩
    · have next : exec (.headerComplete levels) s = .next (headerComplete levels s) :=
        congrArg Host.Outcome.next (whenRunning_running s _ running)
      rw [headerComplete_of_mismatch receiving flying mismatch] at next
      by_cases event : (headerArrived (r.rx.feed levels) && !r.headerSeen) = true
      · rw [if_pos event] at next
        refine ⟨_, next, headerEvent_collided spec _ _, fun stays => ?_⟩
        obtain absent | seen := stays
        · rw [absent] at event
          cases event
        · rw [seen, Bool.not_true, Bool.and_false] at event
          cases event
      · rw [if_neg event] at next
        exact ⟨_, next, spec, fun _ => receive⟩
    · have next := exec_frameEnd_of_running running levels
      rw [frameEnd_of_open receiving goesOn, endMismatch_of_mismatch mismatch, collideAt_some flying] at next
      exact ⟨_, next.trans (congrArg Host.Outcome.next (if_pos rfl)), spec, receive⟩
  · obtain ⟨m, mismatch⟩ := endMismatch_isSome own compares ended (other.imp id (not_endsAsSent flying))
    have next := exec_frameEnd_of_running running levels
    rw [frameEnd_of_ended receiving ended, mismatch, collideAt_some flying] at next
    exact ⟨_, next, endFrame_of_collided spec (receive.trans receiving) own⟩

end Sys2Proof.Machine
end

section
/-! A CLEAN frame end (R14): the blocks in turn, their notices, and the booking. -/

namespace Sys2Proof.Machine

/-! ## Notices in a freely chosen order (R179) -/

theorem sublist_mergeNotices (k c : Nat) (xs ys : List Notice) :
    xs.Sublist (mergeNotices k c xs ys) ∧ ys.Sublist (mergeNotices k c xs ys) := by
  induction k generalizing c xs ys with
  | zero => exact ⟨List.sublist_append_left xs ys, List.sublist_append_right xs ys⟩
  | succ k ih =>
    match xs, ys with
    | [], ys => exact ⟨List.nil_sublist _, List.Sublist.refl _⟩
    | x :: xs, [] => exact ⟨List.Sublist.refl _, List.nil_sublist _⟩
    | x :: xs, y :: ys =>
      unfold mergeNotices
      split
      · obtain ⟨first, second⟩ := ih (c + 1) xs (y :: ys)
        exact ⟨first.cons_cons x, second.cons x⟩
      · obtain ⟨first, second⟩ := ih (c + 1) (x :: xs) ys
        exact ⟨first.cons y, second.cons_cons y⟩

/-- The notices of the groups in one order that keeps the order of each. -/
def Interleaved (gs : List (List Notice)) (ns : List Notice) : Prop := ns.Perm gs.flatten ∧ ∀ g ∈ gs, g.Sublist ns

theorem interleave_interleaved (c : Nat) (gs : List (List Notice)) : Interleaved gs (interleave c gs).1 := by
  refine ⟨interleave_perm c gs, ?_⟩
  induction gs with
  | nil => exact fun g listed => absurd listed List.not_mem_nil
  | cons g gs ih =>
    obtain ⟨first, second⟩ := sublist_mergeNotices (g.length + (interleave c gs).1.length) (interleave c gs).2 g
      (interleave c gs).1
    intro x listed
    obtain rfl | listed := List.mem_cons.mp listed
    · exact first
    · exact (ih x listed).trans second

/-! ## What the blocks post -/

/-- The kind code of a notice (12.8). -/
def Notice.sort (n : Notice) : Byte := n.fields.1

theorem epochDone_sort (o : EpochOutcome) : (Notice.epochDone o).sort = 0x60 := by cases o <;> rfl

/-- At most `k` notices, all of the kinds given. -/
def Among (codes : List Byte) (k : Nat) (ns : List Notice) : Prop := (∀ n ∈ ns, n.sort ∈ codes) ∧ ns.length ≤ k

namespace Among

variable {codes : List Byte} {k l : Nat} {ns ms : List Notice}

theorem nil : Among codes k [] := ⟨fun _ listed => absurd listed List.not_mem_nil, Nat.zero_le k⟩

theorem single {n : Notice} (c : Byte) (sort : n.sort = c) (known : c ∈ codes) : Among codes (k + 1) [n] :=
  ⟨List.forall_mem_singleton.mpr (sort ▸ known), Nat.succ_le_succ (Nat.zero_le k)⟩

theorem append (h : Among codes k ns) (h' : Among codes l ms) : Among codes (k + l) (ns ++ ms) := by
  refine ⟨fun n listed => (List.mem_append.mp listed).elim (h.1 n) (h'.1 n), ?_⟩
  rw [List.length_append]
  exact Nat.add_le_add h.2 h'.2

theorem mono (h : Among codes k ns) (low : k ≤ l) : Among codes l ns := ⟨h.1, h.2.trans low⟩

theorem cons {n : Notice} (c : Byte) (sort : n.sort = c) (known : c ∈ codes) (h : Among codes k ns) :
    Among codes (k + 1) (n :: ns) :=
  ⟨List.forall_mem_cons.mpr ⟨sort ▸ known, h.1⟩, Nat.succ_le_succ h.2⟩

end Among

theorem accessAtFrame_among (own : Bool) (f : Frame) (s : State) : Among [0x10] 1 (accessAtFrame own f s).2 := by
  have lowered : ∀ (s : State) (n : Nat), Among [0x10] 1 (lowerScore s n).2 := fun s n => by
    unfold lowerScore rescore
    dsimp only
    split
    · exact .nil
    · exact .single 0x10 rfl List.mem_cons_self
  unfold accessAtFrame
  dsimp only
  split
  · exact lowered _ 2
  · split
    · exact lowered _ 1
    · exact .nil

/-- The kinds of notice that the Session Controller posts at a frame end. -/
def sessionSorts : List Byte := [0x01, 0x02, 0x04, 0x40, 0x60]

theorem refuse_among (reason : RefusalReason) (s : State) : Among sessionSorts 10 (refuse reason s).2 := by
  have recalls : Among sessionSorts 8 (cancelRecalls (refusedBase s)).2 := by
    refine ⟨fun n listed => ?_, (List.length_filterMap_le _ _).trans (le_of_eq (List.length_finRange))⟩
    obtain ⟨p, -, posted⟩ := List.mem_filterMap.mp listed
    dsimp only at posted
    split at posted
    · cases posted
      exact (by decide : (0x40 : Byte) ∈ sessionSorts)
    · cases posted
  have epoch : Among sessionSorts 1 (cancelEpoch (cancelRecalls (refusedBase s)).1).2 := by
    unfold cancelEpoch
    dsimp only
    split
    · exact .nil
    · exact .single 0x60 rfl (by decide)
  exact ((Among.single (k := 0) 0x02 rfl (by decide)).append recalls).append epoch

theorem answerDuplicate_among (f : Frame) (s : State) : Among sessionSorts 10 (answerDuplicate f s).2 := by
  have suspected : ∀ k, Among sessionSorts 10 [.duplicateSuspected k] := fun k =>
    .single 0x04 rfl (by decide)
  unfold answerDuplicate
  split
  · exact .nil
  · dsimp only
    split
    · exact refuse_among _ s
    · split
      · exact suspected _
      · exact .nil
  all_goals exact suspected _

theorem sessionAtFrame_among (own : Bool) (f : Frame) (s : State) : Among sessionSorts 10 (sessionAtFrame own f s).2 := by
  unfold sessionAtFrame
  split
  · unfold ownCleanEnd
    split
    · exact .single 0x01 rfl (by decide)
    all_goals exact .nil
  · split
    · unfold foreignOwnNumber
      split
      · exact refuse_among _ s
      · exact refuse_among _ s
      · exact answerDuplicate_among f s
      all_goals exact .nil
    · exact .nil

theorem arrivalNotice_among (e : RosterEntry) (x : Station) : Among [0x20, 0x21, 0x23] 1 (arrivalNotice e x) := by
  unfold arrivalNotice
  split
  · exact .single 0x20 rfl (by decide)
  · exact .single 0x21 rfl (by decide)
  all_goals exact .nil

theorem identifyPeer_among (s : State) (x : Station) (caution : Bool) (last : Option SeqNo) (tag : UnitTag) :
    Among [0x20, 0x21, 0x23] 1 (identifyPeer s x caution last tag).2 := by
  unfold identifyPeer
  dsimp only
  split
  · exact .single 0x23 rfl (by decide)
  · exact .nil

theorem rosterAtFrame_among (own : Bool) (f : Frame) (s : State) :
    Among [0x20, 0x21, 0x23] 2 (rosterAtFrame own f s).2 := by
  unfold rosterAtFrame
  split
  · exact .nil
  · split
    · exact .nil
    · unfold hearPeer
      dsimp only
      split
      · exact (arrivalNotice_among _ _).append (identifyPeer_among _ _ _ _ _)
      · exact (arrivalNotice_among _ _).append (identifyPeer_among _ _ _ _ _)
      all_goals exact (arrivalNotice_among _ _).mono (by decide)

theorem acceptanceAtFrame_among (own headerSeen : Bool) (f : Frame) (s : State) :
    Among [0x30] 1 (acceptanceAtFrame own headerSeen f s).2 := by
  have marked : ∀ s : State, Among [0x30] 1 (recordMark s).2 := fun s => by
    unfold recordMark recordOverflow
    split
    · dsimp only
      split
      · exact .nil
      · exact .single 0x30 rfl List.mem_cons_self
    · exact .nil
  unfold acceptanceAtFrame
  split
  · split
    · unfold settleUpdate
      dsimp only
      exact marked _
    all_goals exact .nil
  · exact .nil

theorem publicationAtFrame_among (own : Bool) (f : Frame) (s : State) :
    Among [0x50, 0x51] 1 (publicationAtFrame own f s).2 := by
  unfold publicationAtFrame ownershipConflict
  split
  · exact .nil
  · split
    · split
      · exact .nil
      · split
        · exact .single 0x50 rfl (by decide)
        · split
          · exact .single 0x51 rfl (by decide)
          · exact .nil
    all_goals exact .nil

theorem continuityAtFrame_among (own : Bool) (f : Frame) (s : State) : Among [0x40] 1 (continuityAtFrame own f s).2 := by
  unfold continuityAtFrame answerRecall
  split
  · split
    · dsimp only
      split
      · exact .single 0x40 rfl List.mem_cons_self
      · exact .nil
    · exact .nil
  · split <;> exact .nil
  all_goals exact .nil

theorem captureInto_among (s : State) (e : SeqNo) (x : Station) : Among [0x60, 0x61, 0x62] 1 (captureInto s e x).2 := by
  unfold captureInto
  dsimp only
  split
  · exact .single 0x62 rfl (by decide)
  · exact .nil

theorem capture_among (s : State) (e : SeqNo) (x : Station) : Among [0x60, 0x61, 0x62] 2 (capture s e x).2 := by
  unfold capture
  split
  · exact (captureInto_among s e x).mono (by decide)
  · split
    · exact .nil
    · dsimp only
      split
      · exact (captureInto_among s e x).mono (by decide)
      · exact Among.cons 0x61 rfl (by decide) (captureInto_among s e x)

theorem epochAtFrame_among (own : Bool) (f : Frame) (s : State) : Among [0x60, 0x61, 0x62] 3 (epochAtFrame own f s).2 := by
  have settled : ∀ (e : SeqNo) (x : Station) (s : State), Among [0x60, 0x61, 0x62] 1 (settleRequest own e x s).2 := fun e x s => by
    unfold settleRequest
    split
    · exact .single 0x60 rfl (by decide)
    · split
      · exact .single 0x60 rfl (by decide)
      · exact .nil
  unfold epochAtFrame
  split
  · exact (capture_among s _ _).append (settled _ _ _)
  all_goals exact .nil

/-- The notices of the blocks at a CLEAN frame end, block by block (log 16). -/
def frameNotices (own headerSeen : Bool) (f : Frame) (s : State) : List (List Notice) :=
  [(accessAtFrame own f s).2, (sessionAtFrame own f (accessAtFrame own f s).1).2,
   (rosterAtFrame own f (afterSession own f s)).2, (acceptanceAtFrame own headerSeen f (afterRoster own f s)).2,
   (publicationAtFrame own f (afterAcceptance own headerSeen f s)).2,
   (continuityAtFrame own f (publicationAtFrame own f (afterAcceptance own headerSeen f s)).1).2,
   (epochAtFrame own f
     (continuityAtFrame own f (publicationAtFrame own f (afterAcceptance own headerSeen f s)).1).1).2]

theorem frameNotices_length (own headerSeen : Bool) (f : Frame) (s : State) :
    (frameNotices own headerSeen f s).flatten.length ≤ 19 := by
  have access := (accessAtFrame_among own f s).2
  have session := (sessionAtFrame_among own f (accessAtFrame own f s).1).2
  have roster := (rosterAtFrame_among own f (afterSession own f s)).2
  have acceptance := (acceptanceAtFrame_among own headerSeen f (afterRoster own f s)).2
  have publication := (publicationAtFrame_among own f (afterAcceptance own headerSeen f s)).2
  have continuity := (continuityAtFrame_among own f (publicationAtFrame own f (afterAcceptance own headerSeen f s)).1).2
  have epoch := (epochAtFrame_among own f
    (continuityAtFrame own f (publicationAtFrame own f (afterAcceptance own headerSeen f s)).1).1).2
  unfold frameNotices
  simp only [List.flatten_cons, List.flatten_nil, List.length_append, List.length_nil]
  omega

/-- A CLEAN frame end is the blocks in turn with their notices, in an order that keeps that of each block. -/
theorem cleanFrame_posts (own headerSeen : Bool) (f : Frame) (s : State) :
    ∃ ns n, cleanFrame own headerSeen f s = postAll { afterBlocks own headerSeen f s with free := n } ns ∧
      Interleaved (frameNotices own headerSeen f s) ns :=
  ⟨_, _, rfl, interleave_interleaved _ _⟩

/-! ## The notice queue after a CLEAN frame -/

/-- What stands in the queue that was empty (R179). -/
theorem postAll_notices_of_empty {s : State} {ns : List Notice} (empty : s.port.notices = []) (room : ns.length ≤ 32) :
    (postAll s ns).port.notices = ns.map fun n => { notice := n, stamp := s.line.clock } := by
  rw [postAll_notices s ns (by rw [empty, List.length_nil, Nat.zero_add]; exact room), empty]
  exact List.nil_append _

/-- The notices of a CLEAN frame's end are posted. -/
structure FramePosted (s t : State) (gs : List (List Notice)) : Prop where
  posted : ∃ ns, t.port = (postAll s ns).port ∧ Interleaved gs ns
  room : gs.flatten.length ≤ 32

namespace FramePosted

variable {s t : State} {gs : List (List Notice)}

theorem notices (h : FramePosted s t gs) (empty : s.port.notices = []) : ∃ ns, Interleaved gs ns ∧
    t.port.notices = ns.map fun n => { notice := n, stamp := s.line.clock } := by
  obtain ⟨ns, port, ordered⟩ := h.posted
  refine ⟨ns, ordered, ?_⟩
  rw [port]
  exact postAll_notices_of_empty empty (ordered.1.length_eq ▸ h.room)

theorem sublist (h : FramePosted s t gs) (empty : s.port.notices = []) {g : List Notice} (listed : g ∈ gs) :
    (g.map fun n => ({ notice := n, stamp := s.line.clock } : NoticeRecord)).Sublist t.port.notices := by
  obtain ⟨ns, ordered, queue⟩ := h.notices empty
  rw [queue]
  exact (ordered.2 g listed).map _

theorem notified (h : FramePosted s t gs) {g : List Notice} (listed : g ∈ gs) {n : Notice} (posted : n ∈ g) :
    notified s t n := fun empty => (h.sublist empty listed).subset (List.mem_map_of_mem posted)

theorem unnotified (h : FramePosted s t gs) {P : Notice → Prop} (silent : ∀ g ∈ gs, ∀ n ∈ g, ¬ P n) : unnotified s t P := by
  intro empty x queued
  obtain ⟨ns, ordered, queue⟩ := h.notices empty
  rw [queue] at queued
  obtain ⟨n, listed, rfl⟩ := List.mem_map.mp queued
  obtain ⟨g, group, posted⟩ := List.mem_flatten.mp (ordered.1.subset listed)
  exact silent g group n posted

end FramePosted

/-- Notices of other kinds. -/
theorem Among.lacks {codes : List Byte} {k : Nat} {ns : List Notice} (h : Among codes k ns) {P : Notice → Prop}
    {sorts : List Byte} (sort : ∀ n, P n → n.sort ∈ sorts) (apart : ∀ c ∈ sorts, c ∉ codes) : ∀ n ∈ ns, ¬ P n :=
  fun n listed holds => apart _ (sort n holds) (h.1 n listed)

/-- A property of notices that no block posts. -/
theorem frameNotices_lack {own headerSeen : Bool} {f : Frame} {s : State} {P : Notice → Prop}
    (access : ∀ n ∈ (accessAtFrame own f s).2, ¬ P n)
    (session : ∀ n ∈ (sessionAtFrame own f (accessAtFrame own f s).1).2, ¬ P n)
    (roster : ∀ n ∈ (rosterAtFrame own f (afterSession own f s)).2, ¬ P n)
    (acceptance : ∀ n ∈ (acceptanceAtFrame own headerSeen f (afterRoster own f s)).2, ¬ P n)
    (publication : ∀ n ∈ (publicationAtFrame own f (afterAcceptance own headerSeen f s)).2, ¬ P n)
    (continuity : ∀ n ∈ (continuityAtFrame own f (publicationAtFrame own f (afterAcceptance own headerSeen f s)).1).2, ¬ P n)
    (epoch : ∀ n ∈ (epochAtFrame own f
      (continuityAtFrame own f (publicationAtFrame own f (afterAcceptance own headerSeen f s)).1).1).2, ¬ P n) :
    ∀ g ∈ frameNotices own headerSeen f s, ∀ n ∈ g, ¬ P n := by
  unfold frameNotices
  simp only [List.forall_mem_cons]
  exact ⟨access, session, roster, acceptance, publication, continuity, epoch,
    fun g listed => absurd listed List.not_mem_nil⟩

end Sys2Proof.Machine
end

section
/-! The state after a CLEAN frame end (R14, log 16): which block sets which part. -/

namespace Sys2Proof.Machine

/-! ## The parts that the blocks leave -/

theorem accessAtFrame_clock (own : Bool) (f : Frame) (s : State) :
    (accessAtFrame own f s).1.line = { s.line with send := (accessAtFrame own f s).1.line.send } := by
  unfold accessAtFrame
  dsimp only
  split
  · have line : ∀ u : State, (cleanEnd u).line = { u.line with send := (cleanEnd u).line.send } := fun u => by
      cases flying : u.access.inFlight with
      | none => rw [cleanEnd_of_none flying]
      | some f => rw [cleanEnd_of_flight flying, ownerClean_eq] <;> rfl
    exact line _
  · split <;> rfl

theorem sessionAtFrame_line (own : Bool) (f : Frame) (s : State) : (sessionAtFrame own f s).1.line = s.line := by
  have defended : (defend s).line = s.line := by rw [defend_eq, setPubs_line]
  unfold sessionAtFrame
  split
  · unfold ownCleanEnd
    split
    · unfold enterMember
      dsimp only
      rw [announce_eq, setPubs_line]
      rfl
    all_goals rfl
  · split
    · unfold foreignOwnNumber
      split
      · rfl
      · rfl
      · unfold answerDuplicate
        split
        · exact defended
        · dsimp only
          split
          · rfl
          · split <;> exact defended
        all_goals exact defended
      all_goals rfl
    · rfl

/-- The Roster and the Acceptance Unit set their own parts, the Message Store and the tracker. -/
theorem afterAcceptance_eq (own headerSeen : Bool) (f : Frame) (s : State) :
    afterAcceptance own headerSeen f s = { afterSession own f s with
      roster := (afterRoster own f s).roster, accept := (afterAcceptance own headerSeen f s).accept,
      store := (afterAcceptance own headerSeen f s).store, cont := (afterAcceptance own headerSeen f s).cont } := by
  have heard : afterRoster own f s = _ := rosterAtFrame_eq own f (afterSession own f s)
  have settled : AcceptanceChanged (afterRoster own f s) (afterAcceptance own headerSeen f s) :=
    acceptanceAtFrame_changed own headerSeen f (afterRoster own f s)
  unfold AcceptanceChanged at settled
  generalize afterAcceptance own headerSeen f s = t at settled ⊢
  generalize afterRoster own f s = u at heard settled ⊢
  generalize afterSession own f s = x at heard ⊢
  obtain ⟨roster, cont, rfl⟩ : ∃ roster cont, u = (x.setRoster roster).setCont cont := ⟨_, _, heard⟩
  obtain ⟨accept, store, cont', rfl⟩ : ∃ accept store cont',
    t = (((((x.setRoster roster).setCont cont).setAccept accept).setStore store).setCont cont') := ⟨_, _, _, settled⟩
  rfl

theorem continuityAtFrame_tracker (own : Bool) (f : Frame) (s : State) :
    (continuityAtFrame own f s).1.cont.tracker = s.cont.tracker := by
  unfold continuityAtFrame answerRecall suppressRecall
  split
  · split
    · dsimp only
      split <;> rfl
    · rfl
  · split
    · rfl
    · dsimp only
      split
      · split <;> rfl
      · rfl
  all_goals rfl

/-- The Publication, Continuity and Epoch Units set their own parts. -/
theorem afterBlocks_eq (own headerSeen : Bool) (f : Frame) (s : State) :
    afterBlocks own headerSeen f s = { afterAcceptance own headerSeen f s with
      pubs := (afterBlocks own headerSeen f s).pubs,
      cont := { (afterAcceptance own headerSeen f s).cont with recalls := (afterBlocks own headerSeen f s).cont.recalls },
      epoch := (afterBlocks own headerSeen f s).epoch } := by
  unfold afterBlocks
  generalize afterAcceptance own headerSeen f s = x
  have published := publicationAtFrame_eq own f x
  generalize (publicationAtFrame own f x).1 = y at published ⊢
  have answered := continuityAtFrame_eq own f y
  have tracker := continuityAtFrame_tracker own f y
  generalize (continuityAtFrame own f y).1 = z at answered tracker ⊢
  have captured := epochAtFrame_eq own f z
  generalize (epochAtFrame own f z).1 = t at captured ⊢
  obtain ⟨pubs, rfl⟩ : ∃ pubs, y = x.setPubs pubs := ⟨_, published⟩
  obtain ⟨cont, pubs', rfl⟩ : ∃ cont pubs', z = ((x.setPubs pubs).setCont cont).setPubs pubs' := ⟨_, _, answered⟩
  obtain ⟨epoch, pubs'', rfl⟩ : ∃ epoch pubs'', t = ((((x.setPubs pubs).setCont cont).setPubs pubs').setEpoch epoch).setPubs
    pubs'' := ⟨_, _, captured⟩
  have same : cont = { x.cont with recalls := cont.recalls } :=
    congrArg (fun tracker => ({ tracker := tracker, recalls := cont.recalls } : ContinuityUnit)) tracker
  exact congrArg (fun c => (((((x.setPubs pubs).setCont c).setPubs pubs').setEpoch epoch).setPubs pubs'' : State)) same

section Parts

variable (own headerSeen : Bool) (f : Frame) (s : State)

theorem afterBlocks_line : (afterBlocks own headerSeen f s).line = (accessAtFrame own f s).1.line :=
  (congrArg State.line (afterBlocks_eq own headerSeen f s) :).trans
    ((congrArg State.line (afterAcceptance_eq own headerSeen f s) :).trans (sessionAtFrame_line own f _))

theorem afterBlocks_access : (afterBlocks own headerSeen f s).access = (afterSession own f s).access :=
  (congrArg State.access (afterBlocks_eq own headerSeen f s) :).trans
    (congrArg State.access (afterAcceptance_eq own headerSeen f s) :)

theorem afterBlocks_session : (afterBlocks own headerSeen f s).session = (afterSession own f s).session :=
  (congrArg State.session (afterBlocks_eq own headerSeen f s) :).trans
    (congrArg State.session (afterAcceptance_eq own headerSeen f s) :)

theorem afterBlocks_roster : (afterBlocks own headerSeen f s).roster = (afterRoster own f s).roster :=
  (congrArg State.roster (afterBlocks_eq own headerSeen f s) :).trans
    (congrArg State.roster (afterAcceptance_eq own headerSeen f s) :)

theorem afterBlocks_accept : (afterBlocks own headerSeen f s).accept = (afterAcceptance own headerSeen f s).accept :=
  (congrArg State.accept (afterBlocks_eq own headerSeen f s) :)

theorem afterBlocks_store : (afterBlocks own headerSeen f s).store = (afterAcceptance own headerSeen f s).store :=
  (congrArg State.store (afterBlocks_eq own headerSeen f s) :)

theorem afterBlocks_tracker :
    (afterBlocks own headerSeen f s).cont.tracker = (afterAcceptance own headerSeen f s).cont.tracker :=
  (congrArg (fun t : State => t.cont.tracker) (afterBlocks_eq own headerSeen f s) :)

theorem afterBlocks_port : (afterBlocks own headerSeen f s).port = s.port := by
  unfold afterBlocks afterAcceptance afterRoster afterSession
  rw [epochAtFrame_port, continuityAtFrame_port, publicationAtFrame_port, acceptanceAtFrame_port, rosterAtFrame_port,
    sessionAtFrame_port, accessAtFrame_port]

end Parts

/-! ## The end of a CLEAN frame -/

/-- The state in which the blocks act (R4, log 2). -/
def framed (s : State) (levels : List LineLevel) (r : Reception) : State :=
  closeReception (impliedHeader levels s r).1 (r.rx.feed levels)

theorem framed_eq (s : State) (levels : List LineLevel) (r : Reception) : framed s levels r = { s with
    line := closedLine s (r.rx.feed levels), accept := (impliedHeader levels s r).1.accept,
    store := (impliedHeader levels s r).1.store } := closeReception_impliedHeader levels s r _

/-- The state that the blocks leave, without the port and the count of free choices. -/
def acted (s : State) (levels : List LineLevel) (r : Reception) (f : Frame) : State :=
  afterBlocks r.own (impliedHeader levels s r).2 f (framed s levels r)

/-- The state after the end of the CLEAN frame `f`: what the blocks leave, their notices posted, and the booking settled. -/
structure CleanEnd (s t : State) (levels : List LineLevel) (r : Reception) (f : Frame) : Prop where
  state : ∃ n b, t = { acted s levels r f with
    free := n, access := { (acted s levels r f).access with booking := b }, port := t.port }
  posted : FramePosted s t (frameNotices r.own (impliedHeader levels s r).2 f (framed s levels r))
  settled : ∀ base : State, ((acted s levels r f).access.booking = base.access.booking ∧
      (acted s levels r f).access.inFlight = base.access.inFlight ∧
      (acted s levels r f).access.slotTime = base.access.slotTime) ∨
    permission (acted s levels r f) = false → SettledBooking base t

theorem acted_clock (s : State) (levels : List LineLevel) (r : Reception) (f : Frame) :
    (acted s levels r f).line.clock = s.line.clock := by
  unfold acted
  rw [afterBlocks_line, accessAtFrame_clock, framed_eq]
  rfl

theorem acted_port (s : State) (levels : List LineLevel) (r : Reception) (f : Frame) :
    (acted s levels r f).port = s.port := by
  unfold acted
  rw [afterBlocks_port, framed_eq]

/-- The booking settled behind posted notices (R25, R27). -/
theorem settleBooking_posted {s u : State} (port : u.port = s.port) (clock : u.line.clock = s.line.clock) (n : Nat)
    (ns : List Notice) :
    (∃ b, settleBooking (postAll { u with free := n } ns) =
      { u with free := n, access := { u.access with booking := b }, port := (postAll s ns).port }) ∧
    ∀ base : State, (u.access.booking = base.access.booking ∧ u.access.inFlight = base.access.inFlight ∧
      u.access.slotTime = base.access.slotTime) ∨ permission u = false →
      SettledBooking base (settleBooking (postAll { u with free := n } ns)) := by
  have queue := postAll_of_port (s := s) (u := { u with free := n }) port clock ns
  obtain ⟨b, booked⟩ := settleBooking_exists (postAll { u with free := n } ns)
  refine ⟨⟨b, ?_⟩, fun base same => ?_⟩
  · rw [booked, queue]
    rfl
  · obtain ⟨booking, flight, slotTime⟩ | refused := same
    · refine settleBooking_settled ?_ ?_ ?_ <;> rw [postAll_access] <;> assumption
    · have without : permission (postAll { u with free := n } ns) = false := by
        rw [queue]
        exact refused
      have same : permission (settleBooking (postAll { u with free := n } ns)) =
          permission (postAll { u with free := n } ns) := by
        rw [booked]
        rfl
      refine ⟨fun _ => ?_, fun permitted => ?_⟩
      · rw [settleBooking_no_permission _ without]
        rfl
      · exact absurd (permitted.symm.trans (same.trans without)) (by decide)

/-- The blocks have acted on a CLEAN frame, and the booking is settled. -/
theorem cleanFrame_cleanEnd (s : State) (levels : List LineLevel) (r : Reception) (f : Frame) : CleanEnd s
    (settleBooking (cleanFrame r.own (impliedHeader levels s r).2 f (framed s levels r))) levels r f := by
  obtain ⟨ns, n, acts, ordered⟩ := cleanFrame_posts r.own (impliedHeader levels s r).2 f (framed s levels r)
  have length : (frameNotices r.own (impliedHeader levels s r).2 f (framed s levels r)).flatten.length ≤ 32 :=
    (frameNotices_length _ _ _ _).trans (by decide)
  obtain ⟨⟨b, booked⟩, settled⟩ := settleBooking_posted (acted_port s levels r f) (acted_clock s levels r f) n ns
  have same : settleBooking (cleanFrame r.own (impliedHeader levels s r).2 f (framed s levels r)) =
      settleBooking (postAll { acted s levels r f with free := n } ns) := congrArg settleBooking acts
  rw [same]
  exact ⟨⟨n, b, by rw [booked]⟩, ⟨⟨ns, by rw [booked], ordered⟩, length⟩, settled⟩

theorem cleanFrame_session (s : State) (levels : List LineLevel) (r : Reception) (f : Frame) :
    (cleanFrame r.own (impliedHeader levels s r).2 f (framed s levels r)).session = (acted s levels r f).session := by
  obtain ⟨ns, n, acts, -⟩ := cleanFrame_posts r.own (impliedHeader levels s r).2 f (framed s levels r)
  rw [acts, postAll_session]
  rfl

theorem endFrame_of_outcome {s : State} {levels : List LineLevel} {r : Reception} {f : Frame}
    (clean : outcomeOf s r (r.rx.feed levels) = .clean f) : endFrame levels r (r.rx.feed levels) s =
      settleBooking (leaveAfterFrame r.own (.clean f)
        (cleanFrame r.own (impliedHeader levels s r).2 f (framed s levels r))) := by
  unfold endFrame
  dsimp only
  rw [clean]
  rfl

/-- The end of a frame that is CLEAN, where no leave follows it (R14, R54). -/
theorem endFrame_of_clean {s : State} {levels : List LineLevel} {r : Reception} {f : Frame}
    (clean : outcomeOf s r (r.rx.feed levels) = .clean f)
    (staying : r.own = true → (acted s levels r f).session.state ≠ .leaving) :
    CleanEnd s (endFrame levels r (r.rx.feed levels) s) levels r f := by
  have left : ∀ u : State, (r.own = true → u.session.state ≠ .leaving) → leaveAfterFrame r.own (.clean f) u = u := by
    intro u stays
    cases own : r.own with
    | true =>
      have finished : (finishLeaving u).done = u := by rw [finishLeaving_of_not_leaving (stays own)]; rfl
      exact finished
    | false => rfl
  rw [endFrame_of_outcome clean, left _ fun own => by rw [cleanFrame_session]; exact staying own]
  exact cleanFrame_cleanEnd s levels r f

namespace CleanEnd

variable {s t : State} {levels : List LineLevel} {r : Reception} {f : Frame}

theorem roster (h : CleanEnd s t levels r f) : t.roster = (acted s levels r f).roster := by
  obtain ⟨n, b, state⟩ := h.state
  rw [state]

theorem accept (h : CleanEnd s t levels r f) : t.accept = (acted s levels r f).accept := by
  obtain ⟨n, b, state⟩ := h.state
  rw [state]

theorem store (h : CleanEnd s t levels r f) : t.store = (acted s levels r f).store := by
  obtain ⟨n, b, state⟩ := h.state
  rw [state]

theorem cont (h : CleanEnd s t levels r f) : t.cont = (acted s levels r f).cont := by
  obtain ⟨n, b, state⟩ := h.state
  rw [state]

theorem pubs (h : CleanEnd s t levels r f) : t.pubs = (acted s levels r f).pubs := by
  obtain ⟨n, b, state⟩ := h.state
  rw [state]

theorem epoch (h : CleanEnd s t levels r f) : t.epoch = (acted s levels r f).epoch := by
  obtain ⟨n, b, state⟩ := h.state
  rw [state]

theorem session (h : CleanEnd s t levels r f) : t.session = (acted s levels r f).session := by
  obtain ⟨n, b, state⟩ := h.state
  rw [state]

theorem line (h : CleanEnd s t levels r f) : t.line = (acted s levels r f).line := by
  obtain ⟨n, b, state⟩ := h.state
  rw [state]

theorem access (h : CleanEnd s t levels r f) : ∃ b, t.access = { (acted s levels r f).access with booking := b } := by
  obtain ⟨n, b, state⟩ := h.state
  exact ⟨b, by rw [state]⟩

end CleanEnd

theorem ForeignEnd.isForeign {s : State} {levels : List LineLevel} {r : Reception} {f : Frame}
    (h : ForeignEnd s levels r f) : r.own = false := by
  obtain ⟨-, -, foreign, -, -⟩ := h
  exact foreign

/-- A foreign frame that ends CLEAN (R14). -/
theorem ForeignEnd.next {s : State} {levels : List LineLevel} {r : Reception} {f : Frame} (h : ForeignEnd s levels r f) :
    ∃ t, exec (.frameEnd levels) s = .next t ∧ CleanEnd s t levels r f := by
  obtain ⟨running, receiving, foreign, ended, judged⟩ := h
  have next := exec_frameEnd_of_running running levels
  rw [frameEnd_of_ended receiving ended, endMismatch_of_uncompared levels (.inl foreign), collideAt_none] at next
  have clean : outcomeOf s r (r.rx.feed levels) = .clean f := by
    unfold outcomeOf
    rw [judged, foreign]
    rfl
  exact ⟨_, next, endFrame_of_clean clean fun own => absurd (foreign.symm.trans own) Bool.false_ne_true⟩

/-- A foreign frame that has just been opened, sent whole (R2, R4, R12). -/
theorem foreignEnd_of_opened {s : State} {f : Frame} (running : s.held = false) (opened : s.line.receive = justOpened false)
    (sendable : f.sendable) : ForeignEnd s (wholeFrame (withCheck (encodeFrame f)))
      { own := false, headerSeen := false, heard := 0, rx := Receiver.start } f := by
  refine ⟨running, opened, rfl, ?_, judge_sent sendable⟩
  obtain ⟨idle, fed⟩ := start_feed_wholeFrame (withCheck (encodeFrame f))
  show (Receiver.start.feed _).ended = true
  rw [fed]
  rfl

end Sys2Proof.Machine
end

section
/-! What the Access Controller and the Session Controller do at the end of a CLEAN foreign frame (R21, R34, R38, R51). -/

namespace Sys2Proof.Machine

/-! ## The Access Controller (R21, R34) -/

theorem nextStanding_of_quiet (n : Nat) : nextStanding .quiet n = .normal ∨ nextStanding .quiet n = .quiet := by
  unfold nextStanding
  dsimp only
  split
  · exact .inr rfl
  · exact .inl rfl

theorem accessAtFrame_of_loud {s : State} (f : Frame) (loud : s.access.standing ≠ .quiet) :
    accessAtFrame false f s = (setBase s f.cls f.source, []) := if_neg loud

theorem accessAtFrame_of_quiet {s : State} (f : Frame) (quiet : s.access.standing = .quiet) :
    accessAtFrame false f s = (s.setAccess { s.access with
        bases := upd s.access.bases f.cls fun _ => f.source, score := s.access.score - 1,
        standing := nextStanding .quiet (s.access.score - 1) },
      standingNotices .quiet (nextStanding .quiet (s.access.score - 1))) := by
  rw [← quiet]
  exact if_pos quiet

/-- A foreign frame changes the bases, the score and the standing. -/
theorem accessAtFrame_foreign_eq (f : Frame) (s : State) :
    (accessAtFrame false f s).1 = s.setAccess { s.access with
      bases := upd s.access.bases f.cls fun _ => f.source, score := (accessAtFrame false f s).1.access.score,
      standing := (accessAtFrame false f s).1.access.standing } := by
  by_cases quiet : s.access.standing = .quiet
  · rw [accessAtFrame_of_quiet f quiet]
    rfl
  · rw [accessAtFrame_of_loud f quiet]
    rfl

/-! ## The Session Controller (R44 to R51) -/

/-- The Session Controller refuses, or it leaves the Access Controller alone. -/
theorem sessionAtFrame_access (own : Bool) (f : Frame) (s : State) :
    (sessionAtFrame own f s).1.access = s.access ∨ ∃ reason, sessionAtFrame own f s = refuse reason s := by
  have defended : (defend s).access = s.access := by rw [defend_eq, setPubs_access]
  unfold sessionAtFrame
  split
  · unfold ownCleanEnd
    split
    · exact .inl (enterMember_access s)
    all_goals exact .inl rfl
  · split
    · unfold foreignOwnNumber
      split
      · exact .inr ⟨_, rfl⟩
      · exact .inr ⟨_, rfl⟩
      · unfold answerDuplicate
        split
        · exact .inl defended
        · dsimp only
          split
          · exact .inr ⟨_, rfl⟩
          · split <;> exact .inl defended
        all_goals exact .inl defended
      all_goals exact .inl rfl
    · exact .inl rfl

theorem permission_of_refused {s : State} (refused : s.session.state = .refused) : permission s = false := by
  unfold permission
  rw [refused]
  rfl

theorem refuse_state (reason : RefusalReason) (s : State) : (refuse reason s).1.session.state = .refused := rfl

/-- With a refusal goes the permission, and without one the blocks behind the Access Controller leave it alone. -/
theorem acted_access (s : State) (levels : List LineLevel) (r : Reception) (f : Frame) :
    (acted s levels r f).access = (accessAtFrame r.own f (framed s levels r)).1.access ∨
      (permission (acted s levels r f) = false ∧
        (acted s levels r f).access = { (accessAtFrame r.own f (framed s levels r)).1.access with booking := none }) := by
  have access : (acted s levels r f).access = _ := afterBlocks_access r.own _ f (framed s levels r)
  have session : (acted s levels r f).session = _ := afterBlocks_session r.own _ f (framed s levels r)
  unfold afterSession at access session
  obtain same | ⟨reason, refused⟩ := sessionAtFrame_access r.own f (accessAtFrame r.own f (framed s levels r)).1
  · exact .inl (access.trans same)
  · rw [refused] at access session
    exact .inr ⟨permission_of_refused (by rw [session]; exact refuse_state reason _), access.trans (refuse_access _ _)⟩

/-- What stands in the Access Controller beside the booking. -/
theorem CleanEnd.access_eq {s t : State} {levels : List LineLevel} {r : Reception} {f : Frame} (h : CleanEnd s t levels r f) :
    ∃ b, t.access = { (accessAtFrame r.own f (framed s levels r)).1.access with booking := b } := by
  obtain ⟨b, access⟩ := h.access
  refine ⟨b, ?_⟩
  obtain same | ⟨-, same⟩ := acted_access s levels r f
  · rw [access, same]
  · rw [access, same]

/-- The booking after a foreign frame (R25, R27). -/
theorem CleanEnd.settled_of_foreign {s t : State} {levels : List LineLevel} {r : Reception} {f : Frame}
    (h : CleanEnd s t levels r f) (foreign : r.own = false) : SettledBooking s t := by
  refine h.settled s ?_
  obtain same | ⟨refused, -⟩ := acted_access s levels r f
  · rw [foreign, accessAtFrame_foreign_eq, framed_eq] at same
    rw [same]
    exact .inl ⟨rfl, rfl, rfl⟩
  · exact .inr refused

/-- The line after a foreign frame (R4). -/
theorem CleanEnd.line_of_foreign {s t : State} {levels : List LineLevel} {r : Reception} {f : Frame}
    (h : CleanEnd s t levels r f) (foreign : r.own = false) : t.line = closedLine s (r.rx.feed levels) := by
  rw [h.line]
  unfold acted
  rw [afterBlocks_line, foreign, accessAtFrame_foreign_eq, setAccess_line, framed_eq]

/-- The notices of the Access Controller. -/
theorem CleanEnd.unnotified_standing {s t : State} {levels : List LineLevel} {r : Reception} {f : Frame}
    (h : CleanEnd s t levels r f) (silent : (accessAtFrame r.own f (framed s levels r)).2 = []) :
    unnotified s t fun n => ∃ st, n = .standingChanged st := by
  have sort : ∀ n : Notice, (∃ st, n = .standingChanged st) → n.sort ∈ [(0x10 : Byte)] := by
    rintro n ⟨st, rfl⟩
    exact List.mem_singleton.mpr rfl
  refine h.posted.unnotified (frameNotices_lack ?_ ((sessionAtFrame_among _ _ _).lacks sort (by decide))
    ((rosterAtFrame_among _ _ _).lacks sort (by decide)) ((acceptanceAtFrame_among _ _ _ _).lacks sort (by decide))
    ((publicationAtFrame_among _ _ _).lacks sort (by decide)) ((continuityAtFrame_among _ _ _).lacks sort (by decide))
    ((epochAtFrame_among _ _ _).lacks sort (by decide)))
  rw [silent]
  exact fun n listed => absurd listed List.not_mem_nil

theorem CleanEnd.notified_access {s t : State} {levels : List LineLevel} {r : Reception} {f : Frame} {n : Notice}
    (h : CleanEnd s t levels r f) (posted : n ∈ (accessAtFrame r.own f (framed s levels r)).2) : notified s t n :=
  h.posted.notified List.mem_cons_self posted

/-- Settles O18: a foreign frame's end is the blocks in turn, and the Access Controller's part of it is `accessAtFrame`. -/
theorem cleanForeignFrameMovesItsBase : Obligations.CleanForeignFrameMovesItsBase := by
  intro s f running opened sendable
  have foreign := foreignEnd_of_opened running opened sendable
  obtain ⟨t, next, ended⟩ := foreign.next
  have settled := ended.settled_of_foreign rfl
  have line := ended.line_of_foreign rfl
  obtain ⟨b, access⟩ := ended.access_eq
  have silent := ended.unnotified_standing
  have posts := fun n => ended.notified_access (n := n)
  generalize wholeFrame (withCheck (encodeFrame f)) = levels at *
  have same : (framed s levels { own := false, headerSeen := false, heard := 0, rx := Receiver.start }).access = s.access := by
    rw [framed_eq]
  generalize framed s levels { own := false, headerSeen := false, heard := 0, rx := Receiver.start } = v at *
  have bases : t.access.bases = upd s.access.bases f.cls fun _ => f.source := by
    rw [access, accessAtFrame_foreign_eq, ← same]
    rfl
  refine ⟨t, next, by rw [bases]; exact upd_getElem_self _ _ _,
    fun c other => by rw [bases]; exact upd_getElem_of_ne _ _ other.symm, fun quiet => ?_, fun loud => ?_, settled, ?_, ?_, ?_⟩
  · rw [← same] at quiet
    have acts := accessAtFrame_of_quiet f quiet
    rw [acts] at access silent posts
    have score : t.access.score = s.access.score - 1 := by
      rw [access, ← same]
      rfl
    have standing : t.access.standing = nextStanding .quiet (v.access.score - 1) := by rw [access]; rfl
    rw [← standing] at silent posts
    refine ⟨score, ?_, fun normal => ?_, fun abnormal => silent ?_⟩
    · rw [score, standing, same]
      exact nextStanding_row _ _
    · rw [normal] at posts
      exact posts _ List.mem_cons_self
    · obtain back | stays := nextStanding_of_quiet (v.access.score - 1)
      · exact absurd (standing.trans back) abnormal
      · rw [standing, stays]
        rfl
  · rw [← same] at loud
    have acts := accessAtFrame_of_loud f loud
    rw [acts] at access silent
    exact ⟨by rw [access, ← same]; rfl, by rw [access, ← same]; rfl, silent rfl⟩
  all_goals rw [line]; rfl

end Sys2Proof.Machine
end

section
/-! What the Roster does at the end of a CLEAN frame from a peer (R57, R58, R143). -/

namespace Sys2Proof.Machine

/-! ## A foreign frame of another number -/

theorem sessionAtFrame_of_peer {f : Frame} {s : State} (peer : f.source ≠ ownNumber s) :
    sessionAtFrame false f s = (s, []) := by
  unfold sessionAtFrame
  rw [if_neg Bool.false_ne_true, if_neg peer]

/-- A foreign frame that does not bear the own number passes the Session Controller by (R47). -/
theorem afterSession_of_peer {f : Frame} {s : State} (peer : f.source ≠ ownNumber s) :
    afterSession false f s = (accessAtFrame false f s).1 ∧
      (sessionAtFrame false f (accessAtFrame false f s).1).2 = [] := by
  have same : ownNumber (accessAtFrame false f s).1 = ownNumber s := by rw [accessAtFrame_foreign_eq]; rfl
  have passed := sessionAtFrame_of_peer (s := (accessAtFrame false f s).1) (same ▸ peer)
  exact ⟨(congrArg Prod.fst passed :), (congrArg Prod.snd passed :)⟩

/-- The parts of `s` that a foreign frame of another number leaves to the Roster and the blocks behind it. -/
theorem afterSession_framed {s : State} {levels : List LineLevel} {r : Reception} {f : Frame} (peer : f.source ≠ ownNumber s) :
    ∃ access, afterSession false f (framed s levels r) = { s with
      line := closedLine s (r.rx.feed levels), accept := (impliedHeader levels s r).1.accept,
      store := (impliedHeader levels s r).1.store, access := access } := by
  have same : ownNumber (framed s levels r) = ownNumber s := by rw [framed_eq]; rfl
  rw [(afterSession_of_peer (same ▸ peer)).1, accessAtFrame_foreign_eq, framed_eq]
  exact ⟨_, rfl⟩

theorem sessionNotices_of_peer {s : State} {levels : List LineLevel} {r : Reception} {f : Frame}
    (peer : f.source ≠ ownNumber s) : (sessionAtFrame false f (accessAtFrame false f (framed s levels r)).1).2 = [] := by
  have same : ownNumber (framed s levels r) = ownNumber s := by rw [framed_eq]; rfl
  exact (afterSession_of_peer (same ▸ peer)).2

/-! ## Hearing a peer (R57, R58) -/

/-- What a frame says of its sender: caution flag, last epoch and tag (R57, R58). -/
def FrameBody.report : FrameBody → Option (Bool × Option SeqNo × UnitTag)
  | .presence caution _ noEpoch tag last => some (caution, reportedEpoch noEpoch last, tag)
  | .claim tag => some (false, none, tag)
  | .update .. | .recallFor _ | .epoch _ => none

theorem tag_eq_report (b : FrameBody) : b.tag = b.report.map fun said => said.2.2 := by cases b <;> rfl

/-- The roster entry of a peer that has been heard. -/
def heardEntry (s : State) (x : Station) : RosterEntry := (s.roster[x]).heard s.line.clock (silenceTime s)

theorem hearPeer_of_silent {f : Frame} (s : State) (silent : f.body.report = none) :
    hearPeer s f = (s.updRoster f.source fun e => e.heard s.line.clock (silenceTime s),
      arrivalNotice s.roster[f.source] f.source) := by
  unfold hearPeer
  cases body : f.body with
  | presence => rw [body] at silent; cases silent
  | claim => rw [body] at silent; cases silent
  | update => rfl
  | recallFor => rfl
  | epoch => rfl

theorem hearPeer_of_report {f : Frame} (s : State) {caution : Bool} {last : Option SeqNo} {tag : UnitTag}
    (said : f.body.report = some (caution, last, tag)) :
    hearPeer s f = Posting.andThen (s.updRoster f.source fun e => e.heard s.line.clock (silenceTime s),
      arrivalNotice s.roster[f.source] f.source) fun s => identifyPeer s f.source caution last tag := by
  unfold hearPeer
  cases body : f.body with
  | presence => rw [body] at said; cases said; rfl
  | claim => rw [body] at said; cases said; rfl
  | update => rw [body] at said; cases said
  | recallFor => rw [body] at said; cases said
  | epoch => rw [body] at said; cases said

theorem identifyPeer_of_same {s : State} {x : Station} (caution : Bool) (last : Option SeqNo) {tag : UnitTag}
    (same : (s.roster[x]).tag = none ∨ (s.roster[x]).tag = some tag) :
    identifyPeer s x caution last tag = (s.updRoster x fun e => e.identify caution last tag, []) := by
  refine if_neg ?_
  unfold RosterEntry.replacedBy
  obtain none | some := same
  · rw [none]
    exact Bool.false_ne_true
  · rw [some]
    simp

theorem identifyPeer_of_other {s : State} {x : Station} (caution : Bool) (last : Option SeqNo) {tag old : UnitTag}
    (known : (s.roster[x]).tag = some old) (other : old ≠ tag) :
    identifyPeer s x caution last tag =
      (dropSource (s.updRoster x fun e => e.identify caution last tag) x, [.peerReplaced x]) := by
  refine if_pos ?_
  unfold RosterEntry.replacedBy
  rw [known]
  exact bne_iff_ne.mpr other

/-- Whether the tag replaces a different one or not, the roster has it (R58). -/
theorem identifyPeer_roster (s : State) (x : Station) (caution : Bool) (last : Option SeqNo) (tag : UnitTag) :
    (identifyPeer s x caution last tag).1.roster = (s.updRoster x fun e => e.identify caution last tag).roster := by
  unfold identifyPeer
  dsimp only
  split <;> rfl

/-- The entry of a peer after its frame (R57). -/
theorem hearPeer_entry (s : State) (f : Frame) : (hearPeer s f).1.roster[f.source] =
    match f.body.report with
    | none => heardEntry s f.source
    | some (caution, last, tag) => (heardEntry s f.source).identify caution last tag := by
  cases said : f.body.report with
  | none =>
    rw [hearPeer_of_silent s said]
    exact upd_getElem_self _ _ _
  | some report =>
    obtain ⟨caution, last, tag⟩ := report
    have heard : (s.updRoster f.source fun e => e.heard s.line.clock (silenceTime s)).roster[f.source] =
      heardEntry s f.source := upd_getElem_self _ _ _
    rw [hearPeer_of_report s said, andThen_fst, identifyPeer_roster]
    exact (upd_getElem_self _ _ _).trans (congrArg (fun e : RosterEntry => e.identify caution last tag) heard)

theorem hearPeer_others (s : State) (f : Frame) {n : Station} (other : n ≠ f.source) :
    (hearPeer s f).1.roster[n] = s.roster[n] := by
  cases said : f.body.report with
  | none =>
    rw [hearPeer_of_silent s said]
    exact upd_getElem_of_ne _ _ other.symm
  | some report =>
    obtain ⟨caution, last, tag⟩ := report
    rw [hearPeer_of_report s said, andThen_fst, identifyPeer_roster]
    exact (upd_getElem_of_ne _ _ other.symm).trans (upd_getElem_of_ne _ _ other.symm)

theorem heardEntry_tag (s : State) (x : Station) :
    (s.updRoster x fun e => e.heard s.line.clock (silenceTime s)).roster[x].tag = (s.roster[x]).tag :=
  (congrArg RosterEntry.tag (upd_getElem_self s.roster x fun e => e.heard s.line.clock (silenceTime s)) :)

/-- A tag in place of the same one, or of none (R58). -/
theorem hearPeer_of_same {f : Frame} {s : State} {tag : UnitTag} (tagged : f.body.tag = some tag)
    (same : (s.roster[f.source]).tag = none ∨ (s.roster[f.source]).tag = some tag) :
    (hearPeer s f).1.cont = s.cont ∧ (hearPeer s f).2 = arrivalNotice s.roster[f.source] f.source := by
  rw [tag_eq_report] at tagged
  obtain ⟨⟨caution, last, tag'⟩, said, rfl⟩ := Option.map_eq_some_iff.mp tagged
  rw [← heardEntry_tag] at same
  rw [hearPeer_of_report s said, andThen_fst, andThen_snd]
  dsimp only
  rw [identifyPeer_of_same caution last same]
  exact ⟨rfl, List.append_nil _⟩

/-- A tag in place of a different one (R58, R143). -/
theorem hearPeer_of_other {f : Frame} {s : State} {tag old : UnitTag} (tagged : f.body.tag = some tag)
    (known : (s.roster[f.source]).tag = some old) (other : old ≠ tag) :
    (hearPeer s f).1.cont.tracker = (s.cont.tracker.filter fun e => e.source != f.source) ∧
      (hearPeer s f).2 = arrivalNotice s.roster[f.source] f.source ++ [.peerReplaced f.source] := by
  rw [tag_eq_report] at tagged
  obtain ⟨⟨caution, last, tag'⟩, said, rfl⟩ := Option.map_eq_some_iff.mp tagged
  rw [← heardEntry_tag] at known
  rw [hearPeer_of_report s said, andThen_fst, andThen_snd]
  dsimp only
  rw [identifyPeer_of_other caution last known other]
  exact ⟨rfl, rfl⟩

theorem hearPeer_tagless {f : Frame} (s : State) (tagless : f.body.tag = none) :
    (hearPeer s f).2 = arrivalNotice s.roster[f.source] f.source := by
  rw [tag_eq_report, Option.map_eq_none_iff] at tagless
  rw [hearPeer_of_silent s tagless]

/-! ## The notices of the Roster -/

/-- A property of notices that the Roster alone might post. -/
theorem CleanEnd.unnotified_roster {s t : State} {levels : List LineLevel} {r : Reception} {f : Frame}
    (h : CleanEnd s t levels r f) {P : Notice → Prop} {c : Byte} (sort : ∀ n, P n → n.sort = c)
    (known : c = 0x20 ∨ c = 0x21 ∨ c = 0x23)
    (silent : ∀ n ∈ (rosterAtFrame r.own f (afterSession r.own f (framed s levels r))).2, ¬ P n) : unnotified s t P := by
  have sort' : ∀ n, P n → n.sort ∈ [(0x20 : Byte), 0x21, 0x23] := fun n holds => by
    rw [sort n holds]
    simpa using known
  exact h.posted.unnotified (frameNotices_lack ((accessAtFrame_among _ _ _).lacks sort' (by decide))
    ((sessionAtFrame_among _ _ _).lacks sort' (by decide)) silent ((acceptanceAtFrame_among _ _ _ _).lacks sort' (by decide))
    ((publicationAtFrame_among _ _ _).lacks sort' (by decide)) ((continuityAtFrame_among _ _ _).lacks sort' (by decide))
    ((epochAtFrame_among _ _ _).lacks sort' (by decide)))

theorem roster_group (own headerSeen : Bool) (f : Frame) (s : State) :
    (rosterAtFrame own f (afterSession own f s)).2 ∈ frameNotices own headerSeen f s :=
  List.mem_cons_of_mem _ (List.mem_cons_of_mem _ List.mem_cons_self)

theorem rosterAtFrame_of_peer {f : Frame} {s : State} (peer : f.source ≠ ownNumber s) :
    rosterAtFrame false f s = hearPeer s f := by
  unfold rosterAtFrame
  rw [if_neg Bool.false_ne_true, if_neg peer]

/-- The acceptance of a frame that is no UPDATE leaves the tracker (R84, log 17). -/
theorem acceptanceAtFrame_tracker {own headerSeen : Bool} {f : Frame} (s : State)
    (other : ∀ first again topic seq payload, f.body ≠ .update first again topic seq payload) :
    (acceptanceAtFrame own headerSeen f s).1.cont = s.cont := by
  unfold acceptanceAtFrame
  split
  · split
    · rename_i body
      exact absurd body (other _ _ _ _ _)
    all_goals exact releaseFrame_cont s
  · rfl

theorem acceptance_tracker_of_tagged {own headerSeen : Bool} {f : Frame} {tag : UnitTag} (s : State)
    (tagged : f.body.tag = some tag) : (acceptanceAtFrame own headerSeen f s).1.cont = s.cont :=
  acceptanceAtFrame_tracker s fun first again topic seq payload body => by
    rw [body] at tagged
    cases tagged

theorem arrivalNotice_sort {e : RosterEntry} {x : Station} {n : Notice} (posted : n ∈ arrivalNotice e x) :
    (e.state = .absent ∧ n = .peerJoined x) ∨ (e.state = .silent ∧ n = .peerReturned x) := by
  unfold arrivalNotice at posted
  split at posted
  · exact .inl ⟨by assumption, List.mem_singleton.mp posted⟩
  · exact .inr ⟨by assumption, List.mem_singleton.mp posted⟩
  all_goals exact absurd posted List.not_mem_nil

theorem arrivalNotice_of_absent {e : RosterEntry} (x : Station) (absent : e.state = .absent) :
    arrivalNotice e x = [.peerJoined x] := by
  unfold arrivalNotice
  rw [absent]

theorem arrivalNotice_of_silent {e : RosterEntry} (x : Station) (silent : e.state = .silent) :
    arrivalNotice e x = [.peerReturned x] := by
  unfold arrivalNotice
  rw [silent]

/-- What the Roster posts of a peer: its arrival, and behind it the replacement of its tag (R57, R58). -/
theorem hearPeer_notices (s : State) (f : Frame) : ∃ replaced, (replaced = [] ∨ replaced = [.peerReplaced f.source]) ∧
    (hearPeer s f).2 = arrivalNotice s.roster[f.source] f.source ++ replaced := by
  cases tagged : f.body.tag with
  | none => exact ⟨[], .inl rfl, (hearPeer_tagless s tagged).trans (List.append_nil _).symm⟩
  | some tag =>
    cases known : (s.roster[f.source]).tag with
    | none =>
      obtain ⟨-, posted⟩ := hearPeer_of_same tagged (.inl known)
      exact ⟨[], .inl rfl, posted.trans (List.append_nil _).symm⟩
    | some old =>
      by_cases same : old = tag
      · obtain ⟨-, posted⟩ := hearPeer_of_same tagged (.inr (known.trans (congrArg some same)))
        exact ⟨[], .inl rfl, posted.trans (List.append_nil _).symm⟩
      · exact ⟨_, .inr rfl, (hearPeer_of_other tagged known same).2⟩

theorem hearPeer_posts {s : State} {f : Frame} {n : Notice} (posted : n ∈ (hearPeer s f).2) :
    ((s.roster[f.source]).state = .absent ∧ n = .peerJoined f.source) ∨
      ((s.roster[f.source]).state = .silent ∧ n = .peerReturned f.source) ∨ n = .peerReplaced f.source := by
  obtain ⟨replaced, kinds, notices⟩ := hearPeer_notices s f
  rw [notices] at posted
  obtain arrival | replacement := List.mem_append.mp posted
  · exact (arrivalNotice_sort arrival).imp id .inl
  · obtain rfl | rfl := kinds
    · exact absurd replacement List.not_mem_nil
    · exact .inr (.inr (List.mem_singleton.mp replacement))

theorem heardEntry_state {s : State} {x : Station} (peer : (s.roster[x]).state ≠ .selfEntry) :
    (heardEntry s x).state = .present := by
  show (match (s.roster[x]).state with
    | .absent | .silent | .present => RosterState.present
    | .selfEntry => .selfEntry) = .present
  cases state : (s.roster[x]).state with
  | selfEntry => exact absurd state peer
  | absent => rfl
  | silent => rfl
  | present => rfl

/-- The entry of a peer after its frame, field by field (R57, R58). -/
theorem hearPeer_fields (s : State) (f : Frame) (peer : (s.roster[f.source]).state ≠ .selfEntry) :
    let e := (hearPeer s f).1.roster[f.source]
    e.state = .present ∧ e.lastHeard = s.line.clock ∧ e.deadline = silenceTime s ∧
    (∀ caution last tag, f.body.report = some (caution, last, tag) →
      e.caution = caution ∧ e.tag = some tag ∧ e.lastEpoch = last) ∧
    (f.body.tag = none → e.caution = (s.roster[f.source]).caution ∧ e.tag = (s.roster[f.source]).tag ∧
      e.lastEpoch = (s.roster[f.source]).lastEpoch) := by
  have state := heardEntry_state peer
  dsimp only
  rw [hearPeer_entry, tag_eq_report]
  cases said : f.body.report with
  | none => exact ⟨state, rfl, rfl, nofun, fun _ => ⟨rfl, rfl, rfl⟩⟩
  | some report =>
    obtain ⟨caution, last, tag⟩ := report
    refine ⟨state, rfl, rfl, fun c l t same => ?_, nofun⟩
    cases same
    exact ⟨rfl, rfl, rfl⟩

/-- A clean frame's end is the end of a peer's frame: what the Roster finds and what becomes of its part. -/
theorem CleanEnd.heard {s t : State} {levels : List LineLevel} {r : Reception} {f : Frame} (h : CleanEnd s t levels r f)
    (foreign : r.own = false) (peer : f.source ≠ ownNumber s) :
    ∃ x : State, x.roster = s.roster ∧ x.cont = s.cont ∧ x.line.clock = s.line.clock ∧ x.session = s.session ∧
      t.roster = (hearPeer x f).1.roster ∧
      (∃ seen, t.cont.tracker = (acceptanceAtFrame false seen f (hearPeer x f).1).1.cont.tracker) ∧
      FramePosted s t (frameNotices false (impliedHeader levels s r).2 f (framed s levels r)) ∧
      (hearPeer x f).2 ∈ frameNotices false (impliedHeader levels s r).2 f (framed s levels r) ∧
      ∀ (P : Notice → Prop) (c : Byte), (∀ n, P n → n.sort = c) → c = 0x20 ∨ c = 0x21 ∨ c = 0x23 →
        (∀ n ∈ (hearPeer x f).2, ¬ P n) → unnotified s t P := by
  obtain ⟨access, behind⟩ := afterSession_framed (levels := levels) (r := r) peer
  have group := roster_group false (impliedHeader levels s r).2 f (framed s levels r)
  have roster : t.roster = _ := h.roster.trans (afterBlocks_roster _ _ _ _)
  have tracker : t.cont.tracker = _ := (congrArg ContinuityUnit.tracker h.cont).trans (afterBlocks_tracker _ _ _ _)
  have posted := h.posted
  have silent := fun P c => h.unnotified_roster (P := P) (c := c)
  rw [foreign] at roster tracker posted silent
  unfold afterAcceptance at tracker
  unfold afterRoster at roster tracker
  generalize afterSession false f (framed s levels r) = x at behind group roster tracker silent
  rw [rosterAtFrame_of_peer (f := f) (s := x) (by rw [behind]; exact peer)] at roster tracker group silent
  refine ⟨x, ?_, ?_, ?_, ?_, roster, ⟨_, tracker⟩, posted, group, silent⟩ <;> rw [behind] <;> rfl

theorem silenceTime_congr {s x : State} (session : x.session = s.session) : silenceTime x = silenceTime s := by
  unfold silenceTime recordField
  rw [session]

theorem silenceTime_of_record {s : State} {rec : Record} (recorded : s.session.record = some rec) :
    silenceTime s = some (rec.silenceMultiple * rec.presenceInterval * 10 * 1000) := by
  unfold silenceTime recordField
  rw [recorded]
  rfl

/-- Settles O20: the Roster's part of a frame end is `hearPeer`, and no other block touches the roster. -/
theorem rosterHearsAPeer : Obligations.RosterHearsAPeer := by
  intro s f running opened sendable peer foreigner
  obtain ⟨t, next, ended⟩ := (foreignEnd_of_opened running opened sendable).next
  obtain ⟨x, entries, cont, clock, session, roster, ⟨seen, tracker⟩, posted, group, silent⟩ := ended.heard rfl peer
  rw [← entries] at foreigner ⊢
  rw [← cont, ← silenceTime_congr session]
  obtain ⟨present, heard, deadline, said, unsaid⟩ := hearPeer_fields x f foreigner
  obtain ⟨replaced, kinds, notices⟩ := hearPeer_notices x f
  have joined : ∀ n : Notice, (∃ y, n = .peerJoined y) → n.sort = 0x20 := fun n ⟨y, same⟩ => same ▸ rfl
  have returned : ∀ n : Notice, (∃ y, n = .peerReturned y) → n.sort = 0x21 := fun n ⟨y, same⟩ => same ▸ rfl
  have changed : ∀ n : Notice, (∃ y, n = .peerReplaced y) → n.sort = 0x23 := fun n ⟨y, same⟩ => same ▸ rfl
  have unreplaced : (hearPeer x f).2 = arrivalNotice x.roster[f.source] f.source →
      unnotified s t fun n => ∃ y, n = .peerReplaced y := fun arrival =>
    silent _ 0x23 changed (.inr (.inr rfl)) fun n listed => by
      rw [arrival] at listed
      rintro ⟨y, rfl⟩
      obtain ⟨-, no⟩ | ⟨-, no⟩ := arrivalNotice_sort listed <;> cases no
  refine ⟨t, next, ?_⟩
  rw [roster]
  refine ⟨present, heard.trans clock, deadline, fun rec recorded => ?_, fun n other => hearPeer_others x f other,
    fun caution defence noEpoch tag last body => ?_, fun tag body => ?_, fun tagless => ?_, fun tag tagged => ⟨fun same => ?_,
      fun old known other => ?_⟩, fun absent => ?_, fun quiet => ?_, fun known => ?_, fun known => ?_⟩
  · rw [deadline, silenceTime_congr session]
    exact silenceTime_of_record recorded
  · exact said _ _ _ (by rw [body]; rfl)
  · exact said _ _ _ (by rw [body]; rfl)
  · obtain ⟨kept, same, last⟩ := unsaid tagless
    exact ⟨kept, same, last, unreplaced (hearPeer_tagless x tagless)⟩
  · obtain ⟨same', arrival⟩ := hearPeer_of_same tagged same
    rw [tracker, acceptance_tracker_of_tagged _ tagged, same']
    exact ⟨rfl, unreplaced arrival⟩
  · obtain ⟨dropped, both⟩ := hearPeer_of_other tagged known other
    rw [tracker, acceptance_tracker_of_tagged _ tagged]
    refine ⟨dropped, posted.notified group ?_, fun quiet empty => ?_⟩
    · rw [both]
      exact List.mem_append_right _ List.mem_cons_self
    · have ordered := posted.sublist empty group
      rw [both, arrivalNotice_of_silent _ quiet] at ordered
      exact ordered
  · refine posted.notified group ?_
    rw [notices, arrivalNotice_of_absent _ absent]
    exact List.mem_cons_self
  · refine posted.notified group ?_
    rw [notices, arrivalNotice_of_silent _ quiet]
    exact List.mem_cons_self
  · refine silent _ 0x20 joined (.inl rfl) fun n listed => ?_
    rintro ⟨y, rfl⟩
    obtain ⟨absent, -⟩ | ⟨-, no⟩ | no := hearPeer_posts listed
    · exact known absent
    · cases no
    · cases no
  · refine silent _ 0x21 returned (.inr (.inl rfl)) fun n listed => ?_
    rintro ⟨y, rfl⟩
    obtain ⟨-, no⟩ | ⟨quiet, -⟩ | no := hearPeer_posts listed
    · cases no
    · exact known quiet
    · cases no

end Sys2Proof.Machine
end

section
/-! What the Epoch Unit does at the end of a CLEAN foreign EPOCH (R160 to R162). -/

namespace Sys2Proof.Machine

/-! ## A frame too short for a header (R13) -/

theorem Receiver.chars_length_bit (r : Receiver) (l : LineLevel) : r.chars.length ≤ (r.bit l).chars.length := by
  have counted : (r.count l).chars = r.chars := by cases l <;> rfl
  have advanced : ∀ c : Receiver, c.chars.length ≤ (c.advance l).chars.length := fun c => by
    unfold Receiver.advance
    split
    · exact Nat.le_refl _
    · exact Nat.le_refl _
    · split
      · exact Nat.le_refl _
      · split
        · exact List.length_append ▸ Nat.le_add_right _ _
        · exact Nat.le_refl _
    all_goals exact Nat.le_refl _
  unfold Receiver.bit
  split
  · exact Nat.le_refl _
  · dsimp only
    split
    · exact le_of_eq (congrArg List.length counted.symm)
    · exact counted ▸ advanced (r.count l)

theorem Receiver.chars_length_feed (r : Receiver) (levels : List LineLevel) :
    r.chars.length ≤ (r.feed levels).chars.length := by
  induction levels generalizing r with
  | nil => exact Nat.le_refl _
  | cons l ls ih => exact (r.chars_length_bit l).trans (ih (r.bit l))

/-- No header arrives in a frame of fewer than six characters. -/
theorem not_headerArrives_of_short {r : Receiver} {levels : List LineLevel} (short : (r.feed levels).chars.length < 6) :
    ¬ headerArrives r levels := by
  rintro ⟨n, -, arrived⟩
  have split : (r.feed (levels.take (n + 1))).feed (levels.drop (n + 1)) = r.feed levels := by
    rw [← Receiver.feed_append, List.take_append_drop]
  have grows := (r.feed (levels.take (n + 1))).chars_length_feed (levels.drop (n + 1))
  rw [split] at grows
  unfold headerArrived at arrived
  simp only [Bool.and_eq_true, beq_iff_eq] at arrived
  obtain ⟨⟨⟨⟨⟨-, six⟩, -⟩, -⟩, -⟩, -⟩ := arrived
  omega

theorem impliedHeader_of_never {s : State} {r : Reception} {levels : List LineLevel} (unseen : r.headerSeen = false)
    (never : ¬ headerArrives r.rx levels) : impliedHeader levels s r = (s, false) := by
  obtain ⟨seen, -⟩ | ⟨-, arrives, -⟩ | ⟨-, -, implied⟩ := impliedHeader_cases levels s r
  · exact absurd (unseen.symm.trans seen) Bool.false_ne_true
  · exact absurd arrives never
  · exact implied

/-- A frame whose characters number fewer than six has no header-complete event (R13). -/
theorem impliedHeader_of_short {s : State} {bs : List Byte} {r : Reception} (unseen : r.headerSeen = false)
    (start : r.rx = Receiver.start) (short : bs.length < 6) : impliedHeader (wholeFrame bs) s r = (s, false) := by
  refine impliedHeader_of_never unseen (not_headerArrives_of_short ?_)
  obtain ⟨idle, fed⟩ := start_feed_wholeFrame bs
  rw [start, fed]
  exact short

/-! ## The bank of a capture (R161) -/

/-- The bank of a capture by the states of the two banks and the latest-capture mark. -/
def bankBy (first second : BankState) (latest : Option (Fin 2)) : Fin 2 :=
  if first = .empty then 0
  else if second = .empty then 1
  else if first = .held then 1
  else if second = .held then 0
  else latest.elim 0 otherBank

theorem chooseBank_eq (u : EpochUnit) :
    chooseBank u = bankBy (u.banks[(0 : Fin 2)]).state (u.banks[(1 : Fin 2)]).state u.latest := by
  unfold chooseBank bankBy
  cases u.latest <;> rfl

theorem chooseBank_spec (u : EpochUnit) :
    ((u.banks[(0 : Fin 2)]).state = .empty → chooseBank u = 0) ∧
    ((u.banks[(0 : Fin 2)]).state ≠ .empty → (u.banks[(1 : Fin 2)]).state = .empty → chooseBank u = 1) ∧
    ((u.banks[(0 : Fin 2)]).state = .held → (u.banks[(1 : Fin 2)]).state = .filled → chooseBank u = 1) ∧
    ((u.banks[(0 : Fin 2)]).state = .filled → (u.banks[(1 : Fin 2)]).state = .held → chooseBank u = 0) ∧
    ((u.banks[(0 : Fin 2)]).state = .filled → (u.banks[(1 : Fin 2)]).state = .filled →
      ∀ m, u.latest = some m → chooseBank u ≠ m) := by
  rw [chooseBank_eq]
  generalize (u.banks[(0 : Fin 2)]).state = first
  generalize (u.banks[(1 : Fin 2)]).state = second
  unfold bankBy
  refine ⟨fun empty => if_pos empty, fun filled empty => (if_neg filled).trans (if_pos empty), fun held filled => ?_,
    fun filled held => ?_, fun filled filled' m latest => ?_⟩
  · rw [held, filled]
    rfl
  · rw [filled, held]
    rfl
  · rw [filled, filled', latest]
    exact (otherBank_ne m).symm

/-! ## Capture (R160, R161) -/

/-- The notice of an unexpected number (R160). -/
def gapNotices (u : EpochUnit) (e : SeqNo) : List Notice :=
  match u.lastSeen with
  | some l => if e = l + 1 then [] else [.epochGap (l + 1) e]
  | none => []

theorem capture_of_same {s : State} {e : SeqNo} (x : Station) (same : s.epoch.lastSeen = some e) :
    capture s e x = (s, []) := by
  simp [capture, same]

theorem capture_of_other {s : State} {e : SeqNo} (x : Station) (other : s.epoch.lastSeen ≠ some e) :
    capture s e x = ((captureInto s e x).1, gapNotices s.epoch e ++ (captureInto s e x).2) := by
  cases seen : s.epoch.lastSeen with
  | none => simp only [capture, gapNotices, seen] <;> rfl
  | some l =>
    have differs : e ≠ l := fun same => other (seen.trans (congrArg some same.symm))
    simp only [capture, gapNotices, seen, if_neg differs]
    split <;> rfl

theorem gapNotices_of_gap {u : EpochUnit} {e l : SeqNo} (seen : u.lastSeen = some l) (gap : e ≠ l + 1) :
    gapNotices u e = [.epochGap (l + 1) e] := by
  simp only [gapNotices, seen]
  exact if_neg gap

theorem gapNotices_of_next {u : EpochUnit} {e : SeqNo} (next : u.lastSeen = none ∨ u.lastSeen = some (e - 1)) :
    gapNotices u e = [] := by
  obtain none | seen := next
  · simp only [gapNotices, none]
  · have succ : e = e - 1 + 1 := by bv_omega
    simp only [gapNotices, seen]
    exact if_pos succ

/-- The bank of a capture (R161). -/
theorem captureInto_spec {s : State} {b : Fin 2} (bank : chooseBank s.epoch = b) (e : SeqNo) (x : Station) :
    let u := (captureInto s e x).1.epoch
    u.latest = some b ∧ u.lastSeen = some e ∧ (∀ b', b' ≠ b → u.banks[b'] = s.epoch.banks[b']) ∧
    u.banks[b] = { state := .filled, number := e, source := x, stamp := s.line.clock, copies := tabMap Slot.copy s.store.slots } ∧
    u.request = s.epoch.request ∧ u.latched = s.epoch.latched := by
  subst bank
  exact ⟨rfl, rfl, fun _ other => upd_getElem_of_ne _ _ other.symm, upd_getElem_self _ _ _, rfl, rfl⟩

theorem captureInto_notices {s : State} {b : Fin 2} (bank : chooseBank s.epoch = b) (e : SeqNo) (x : Station) :
    (captureInto s e x).2 =
      if (s.epoch.banks[b]).state = .filled then [.snapshotOverrun (s.epoch.banks[b]).number] else [] := by
  subst bank
  rfl

/-! ## The request (R159, R162) -/

theorem settleRequest_foreign_eq (e : SeqNo) (x : Station) (s : State) :
    settleRequest false e x s = if s.epoch.request = .waiting then
      (removeItem (s.setEpoch s.epoch.settled) .epoch, [.epochDone (.merged e x)]) else (s, []) :=
  if_neg Bool.false_ne_true

/-- A foreign EPOCH settles the request, or leaves it, and nothing else of the Epoch Unit. -/
theorem settleRequest_foreign (e : SeqNo) (x : Station) (s : State) :
    (settleRequest false e x s).1.epoch.lastSeen = s.epoch.lastSeen ∧
    (settleRequest false e x s).1.epoch.banks = s.epoch.banks ∧
    (settleRequest false e x s).1.epoch.latest = s.epoch.latest ∧
    ∀ n ∈ (settleRequest false e x s).2, n.sort = 0x60 := by
  rw [settleRequest_foreign_eq]
  split
  · exact ⟨rfl, rfl, rfl, fun n listed => List.mem_singleton.mp listed ▸ rfl⟩
  · exact ⟨rfl, rfl, rfl, fun n listed => absurd listed List.not_mem_nil⟩

theorem epochAtFrame_of_epoch {own : Bool} {f : Frame} {e : SeqNo} (s : State) (body : f.body = .epoch e) :
    epochAtFrame own f s = (capture s e f.source).andThen (settleRequest own e f.source) := by
  simp only [epochAtFrame, body]

/-! ## The Epoch Unit at the end of a CLEAN EPOCH -/

/-- The state in which the Epoch Unit acts on an EPOCH without a header. -/
theorem epochState_of_epoch {own : Bool} {f : Frame} {e : SeqNo} (s : State) (body : f.body = .epoch e) :
    (continuityAtFrame own f (publicationAtFrame own f (afterAcceptance own false f s)).1).1 = afterRoster own f s := by
  have accepted : afterAcceptance own false f s = afterRoster own f s := by
    unfold afterAcceptance acceptanceAtFrame
    rw [if_neg Bool.false_ne_true]
  have published : ∀ u, (publicationAtFrame own f u).1 = u := fun u => by
    simp only [publicationAtFrame, body]
    split <;> rfl
  have answered : ∀ u, (continuityAtFrame own f u).1 = u := fun u => by
    simp only [continuityAtFrame, body]
  rw [answered, published, accepted]

/-- A frame of another station leaves the capture as it is: a refusal settles the request alone (R51, R166). -/
theorem sessionAtFrame_epoch (own : Bool) (f : Frame) (s : State) :
    (sessionAtFrame own f s).1.epoch = s.epoch ∨ (sessionAtFrame own f s).1.epoch = s.epoch.settled := by
  have defended : (defend s).epoch = s.epoch := by rw [defend_eq, setPubs_epoch]
  unfold sessionAtFrame
  split
  · unfold ownCleanEnd
    split
    · refine .inl ?_
      unfold enterMember
      dsimp only
      rw [announce_eq, setPubs_epoch]
      rfl
    all_goals exact .inl rfl
  · split
    · unfold foreignOwnNumber
      split
      · exact .inr rfl
      · exact .inr rfl
      · unfold answerDuplicate
        split
        · exact .inl defended
        · dsimp only
          split
          · exact .inr rfl
          · split <;> exact .inl defended
        all_goals exact .inl defended
      all_goals exact .inl rfl
    · exact .inl rfl

/-- What the Epoch Unit finds when a foreign frame ends. -/
structure EpochFinds (s z : State) : Prop where
  lastSeen : z.epoch.lastSeen = s.epoch.lastSeen
  banks : z.epoch.banks = s.epoch.banks
  latest : z.epoch.latest = s.epoch.latest
  store : z.store = s.store
  clock : z.line.clock = s.line.clock

theorem afterRoster_eq (own : Bool) (f : Frame) (s : State) : afterRoster own f s =
    { afterSession own f s with roster := (afterRoster own f s).roster, cont := (afterRoster own f s).cont } := by
  unfold afterRoster
  have heard := rosterAtFrame_eq own f (afterSession own f s)
  generalize (rosterAtFrame own f (afterSession own f s)).1 = u at heard ⊢
  exact heard

theorem afterRoster_finds {s v : State} {f : Frame} (epoch : v.epoch = s.epoch) (store : v.store = s.store)
    (clock : v.line.clock = s.line.clock) : EpochFinds s (afterRoster false f v) := by
  have epoch' : (accessAtFrame false f v).1.epoch = s.epoch := by
    rw [accessAtFrame_foreign_eq]
    exact epoch
  have store' : (accessAtFrame false f v).1.store = s.store := by
    rw [accessAtFrame_foreign_eq]
    exact store
  have clock' : (accessAtFrame false f v).1.line.clock = s.line.clock := by
    rw [accessAtFrame_foreign_eq]
    exact clock
  have session := sessionAtFrame_epoch false f (accessAtFrame false f v).1
  have line := sessionAtFrame_line false f (accessAtFrame false f v).1
  have kept := (sessionAtFrame_changed false f (accessAtFrame false f v).1).store
  have roster := afterRoster_eq false f v
  unfold afterSession at roster
  generalize (accessAtFrame false f v).1 = y at epoch' store' clock' session line kept roster
  have same : ∀ z : EpochUnit, z = y.epoch ∨ z = y.epoch.settled →
      z.lastSeen = s.epoch.lastSeen ∧ z.banks = s.epoch.banks ∧ z.latest = s.epoch.latest := by
    rw [← epoch']
    rintro z (rfl | rfl)
    · exact ⟨rfl, rfl, rfl⟩
    · exact ⟨rfl, rfl, rfl⟩
  obtain ⟨lastSeen, banks, latest⟩ := same _ session
  rw [roster]
  exact ⟨lastSeen, banks, latest, kept.trans store', (congrArg LineInterface.clock line).trans clock'⟩

theorem capture_keeps (s : State) (e : SeqNo) (x : Station) : (capture s e x).1.pubs = s.pubs ∧
    (capture s e x).1.epoch.request = s.epoch.request ∧ (capture s e x).1.epoch.latched = s.epoch.latched := by
  by_cases same : s.epoch.lastSeen = some e
  · rw [capture_of_same x same]
    exact ⟨rfl, rfl, rfl⟩
  · rw [capture_of_other x same]
    exact ⟨rfl, rfl, rfl⟩

/-- The notices of a capture: the gap, then the overwritten bank (R160, R161). -/
theorem capture_notices (s : State) (e : SeqNo) (x : Station) :
    ((capture s e x).2 = [] ∧ s.epoch.lastSeen = some e) ∨
      ((capture s e x).2 = gapNotices s.epoch e ++ (captureInto s e x).2 ∧ s.epoch.lastSeen ≠ some e) := by
  by_cases same : s.epoch.lastSeen = some e
  · exact .inl ⟨by rw [capture_of_same x same], same⟩
  · exact .inr ⟨by rw [capture_of_other x same], same⟩

theorem gapNotices_sort {u : EpochUnit} {e : SeqNo} {n : Notice} (posted : n ∈ gapNotices u e) :
    ∃ l, n = .epochGap (l + 1) e := by
  unfold gapNotices at posted
  split at posted
  · split at posted
    · exact absurd posted List.not_mem_nil
    · exact ⟨_, List.mem_singleton.mp posted⟩
  · exact absurd posted List.not_mem_nil

theorem captureInto_sort {s : State} {e : SeqNo} {x : Station} {n : Notice} (posted : n ∈ (captureInto s e x).2) :
    ∃ m, n = .snapshotOverrun m := by
  rw [captureInto_notices rfl] at posted
  split at posted
  · exact ⟨_, List.mem_singleton.mp posted⟩
  · exact absurd posted List.not_mem_nil

/-- A notice of a capture is a gap or an overwritten bank. -/
theorem capture_sort {s : State} {e : SeqNo} {x : Station} {n : Notice} (posted : n ∈ (capture s e x).2) :
    n ∈ gapNotices s.epoch e ∧ s.epoch.lastSeen ≠ some e ∨ n ∈ (captureInto s e x).2 := by
  obtain ⟨none, -⟩ | ⟨both, other⟩ := capture_notices s e x
  · rw [none] at posted
    exact absurd posted List.not_mem_nil
  · rw [both] at posted
    exact (List.mem_append.mp posted).imp (fun gap => ⟨gap, other⟩) id

/-- A clean frame's end is the end of a foreign EPOCH: what the Epoch Unit finds, and what becomes of its part. -/
theorem CleanEnd.epochEnded {s t : State} {levels : List LineLevel} {r : Reception} {f : Frame} {e : SeqNo}
    (h : CleanEnd s t levels r f) (foreign : r.own = false) (body : f.body = .epoch e)
    (unseen : impliedHeader levels s r = (s, false)) :
    ∃ z : State, z = afterRoster false f (framed s levels r) ∧ EpochFinds s z ∧
      t.epoch = (epochAtFrame false f z).1.epoch ∧ t.pubs = (epochAtFrame false f z).1.pubs ∧ t.store = s.store ∧
      FramePosted s t (frameNotices false false f (framed s levels r)) ∧
      (epochAtFrame false f z).2 ∈ frameNotices false false f (framed s levels r) ∧
      (∀ (P : Notice → Prop) (c : Byte), (∀ n, P n → n.sort = c) → c = 0x61 ∨ c = 0x62 →
        (∀ n ∈ (epochAtFrame false f z).2, ¬ P n) → unnotified s t P) := by
  have finds : EpochFinds s (afterRoster false f (framed s levels r)) := by
    refine afterRoster_finds ?_ ?_ ?_ <;> rw [framed_eq, unseen]
    rfl
  have acts : acted s levels r f = (epochAtFrame false f (afterRoster false f (framed s levels r))).1 := by
    unfold acted afterBlocks
    rw [foreign, unseen, epochState_of_epoch _ body]
  have store : t.store = s.store := by
    rw [h.store, acts, (epochAtFrame_changed false f _).store]
    exact finds.store
  have group : (epochAtFrame false f (afterRoster false f (framed s levels r))).2 ∈
      frameNotices false false f (framed s levels r) := by
    rw [← epochState_of_epoch (own := false) (framed s levels r) body]
    unfold frameNotices
    simp only [List.mem_cons, true_or, or_true]
  have posted := h.posted
  rw [foreign, unseen] at posted
  refine ⟨_, rfl, finds, by rw [h.epoch, acts], by rw [h.pubs, acts], store, posted, group,
    fun P c sort known silent => posted.unnotified ?_⟩
  have sort' : ∀ n, P n → n.sort ∈ [(0x61 : Byte), 0x62] := fun n holds => by
    rw [sort n holds]
    simpa using known
  rw [← epochState_of_epoch (own := false) (framed s levels r) body] at silent
  exact frameNotices_lack ((accessAtFrame_among _ _ _).lacks sort' (by decide))
    ((sessionAtFrame_among _ _ _).lacks sort' (by decide)) ((rosterAtFrame_among _ _ _).lacks sort' (by decide))
    ((acceptanceAtFrame_among _ _ _ _).lacks sort' (by decide)) ((publicationAtFrame_among _ _ _).lacks sort' (by decide))
    ((continuityAtFrame_among _ _ _).lacks sort' (by decide)) silent

theorem EpochFinds.bank {s z : State} (finds : EpochFinds s z) : chooseBank z.epoch = chooseBank s.epoch := by
  rw [chooseBank_eq, chooseBank_eq, finds.banks, finds.latest]

/-- The capture of a foreign EPOCH in the bank of R161 (R160, R161). -/
theorem epochAtFrame_captures {s z : State} {f : Frame} {e : SeqNo} (finds : EpochFinds s z) (body : f.body = .epoch e)
    (other : s.epoch.lastSeen ≠ some e) :
    let b := chooseBank s.epoch
    let u := (epochAtFrame false f z).1.epoch
    u.latest = some b ∧ u.lastSeen = some e ∧ (∀ b', b' ≠ b → u.banks[b'] = s.epoch.banks[b']) ∧
    u.banks[b] = { state := .filled, number := e, source := f.source, stamp := s.line.clock,
                   copies := tabMap Slot.copy s.store.slots } := by
  obtain ⟨seen, banks, latest, -⟩ := settleRequest_foreign e f.source (capture z e f.source).1
  obtain ⟨latest', seen', others, captured, -⟩ := captureInto_spec finds.bank e f.source
  rw [finds.banks] at others
  rw [finds.clock, finds.store] at captured
  dsimp only
  rw [epochAtFrame_of_epoch z body, andThen_fst, seen, banks, latest,
    capture_of_other f.source (finds.lastSeen ▸ other)]
  exact ⟨latest', seen', others, captured⟩

/-- A duplicate captures nothing (R160). -/
theorem epochAtFrame_duplicate {s z : State} {f : Frame} {e : SeqNo} (finds : EpochFinds s z) (body : f.body = .epoch e)
    (same : s.epoch.lastSeen = some e) :
    (epochAtFrame false f z).1.epoch.lastSeen = some e ∧ (epochAtFrame false f z).1.epoch.banks = s.epoch.banks ∧
      (epochAtFrame false f z).1.epoch.latest = s.epoch.latest := by
  obtain ⟨seen, banks, latest, -⟩ := settleRequest_foreign e f.source (capture z e f.source).1
  rw [epochAtFrame_of_epoch z body, andThen_fst, seen, banks, latest, capture_of_same f.source (finds.lastSeen.trans same)]
  exact ⟨finds.lastSeen.trans same, finds.banks, finds.latest⟩

/-- What the Epoch Unit posts of a foreign EPOCH. -/
theorem epochAtFrame_sort {s z : State} {f : Frame} {e : SeqNo} {n : Notice} (finds : EpochFinds s z)
    (body : f.body = .epoch e) (posted : n ∈ (epochAtFrame false f z).2) :
    (n ∈ gapNotices s.epoch e ∧ s.epoch.lastSeen ≠ some e) ∨
      ((s.epoch.banks[chooseBank s.epoch]).state = .filled ∧
        n = .snapshotOverrun (s.epoch.banks[chooseBank s.epoch]).number) ∨
      n.sort = 0x60 := by
  obtain ⟨-, -, -, settles⟩ := settleRequest_foreign e f.source (capture z e f.source).1
  rw [epochAtFrame_of_epoch z body, andThen_snd] at posted
  obtain captured | settled := List.mem_append.mp posted
  · obtain ⟨gap, other⟩ | taken := capture_sort captured
    · refine .inl ⟨?_, finds.lastSeen ▸ other⟩
      unfold gapNotices at gap ⊢
      rwa [finds.lastSeen] at gap
    · rw [captureInto_notices finds.bank, finds.banks] at taken
      split at taken
      · exact .inr (.inl ⟨by assumption, List.mem_singleton.mp taken⟩)
      · exact absurd taken List.not_mem_nil
  · exact .inr (.inr (settles n settled))

theorem epochAtFrame_posts_gap {s z : State} {f : Frame} {e l : SeqNo} (finds : EpochFinds s z) (body : f.body = .epoch e)
    (seen : s.epoch.lastSeen = some l) (other : e ≠ l) (gap : e ≠ l + 1) :
    .epochGap (l + 1) e ∈ (epochAtFrame false f z).2 := by
  have differs : z.epoch.lastSeen ≠ some e := by
    rw [finds.lastSeen, seen]
    exact fun same => other (Option.some.inj same).symm
  rw [epochAtFrame_of_epoch z body, andThen_snd, capture_of_other _ differs,
    gapNotices_of_gap (finds.lastSeen.trans seen) gap]
  exact List.mem_append_left _ (List.mem_append_left _ List.mem_cons_self)

theorem epochAtFrame_posts_overrun {s z : State} {f : Frame} {e : SeqNo} (finds : EpochFinds s z) (body : f.body = .epoch e)
    (other : s.epoch.lastSeen ≠ some e) (filled : (s.epoch.banks[chooseBank s.epoch]).state = .filled) :
    .snapshotOverrun (s.epoch.banks[chooseBank s.epoch]).number ∈ (epochAtFrame false f z).2 := by
  rw [epochAtFrame_of_epoch z body, andThen_snd, capture_of_other _ (finds.lastSeen ▸ other),
    captureInto_notices finds.bank, finds.banks, if_pos filled]
  exact List.mem_append_left _ (List.mem_append_right _ List.mem_cons_self)

/-- The request of a station that hears another one's EPOCH (R162). -/
theorem epochAtFrame_request {z : State} {f : Frame} {e : SeqNo} (body : f.body = .epoch e) :
    let E := epochAtFrame false f z
    (z.epoch.request = .waiting → E.1.epoch.request = .none ∧ E.1.epoch.latched = none ∧
      E.1.pubs = { z.pubs with items := z.pubs.items.filter fun it => it.kind != .epoch } ∧
      .epochDone (.merged e f.source) ∈ E.2) ∧
    (z.epoch.request = .none → E.1.epoch.request = .none ∧ E.1.epoch.latched = z.epoch.latched ∧ E.1.pubs = z.pubs ∧
      E.2 = (capture z e f.source).2) := by
  obtain ⟨pubs, request, latched⟩ := capture_keeps z e f.source
  dsimp only
  rw [epochAtFrame_of_epoch z body, andThen_fst, andThen_snd, settleRequest_foreign_eq, request]
  refine ⟨fun waiting => ?_, fun none => ?_⟩
  · rw [if_pos waiting]
    exact ⟨rfl, rfl, congrArg (fun p : PublicationUnit => { p with
      items := p.items.filter fun it : Item => it.kind != ItemKind.epoch }) pubs,
      List.mem_append_right _ List.mem_cons_self⟩
  · rw [if_neg (by rw [none]; exact nofun)]
    exact ⟨request.trans none, latched, pubs, List.append_nil _⟩

/-- Settles O23: the Epoch Unit's part of a frame end is `epochAtFrame`, on the slots, the banks and the mark as they stood. -/
theorem foreignEpochIsCaptured : Obligations.ForeignEpochIsCaptured := by
  rintro s e x f running opened rfl
  have sendable : ({ cls := 0, source := x, body := .epoch e } : Frame).sendable := ⟨rfl, trivial⟩
  obtain ⟨t, next, ended⟩ := (foreignEnd_of_opened running opened sendable).next
  refine ⟨t, next, ?_⟩
  have settled := ended.settled_of_foreign rfl
  have unseen : impliedHeader (wholeFrame (withCheck (encodeFrame { cls := 0, source := x, body := .epoch e }))) s
      { own := false, headerSeen := false, heard := 0, rx := Receiver.start } = (s, false) :=
    impliedHeader_of_short rfl rfl (by rw [withCheck_length]; exact (by decide : 5 < 6))
  have behind := fun peer => afterSession_framed (s := s) (f := { cls := 0, source := x, body := .epoch e })
    (levels := wholeFrame (withCheck (encodeFrame { cls := 0, source := x, body := .epoch e })))
    (r := { own := false, headerSeen := false, heard := 0, rx := Receiver.start }) peer
  obtain ⟨z, state, finds, epoch, pubs, store, posted, group, silent⟩ := ended.epochEnded rfl rfl unseen
  have overrun : ∀ n : Notice, (∃ m, n = .snapshotOverrun m) → n.sort = 0x62 := fun n ⟨m, same⟩ => same ▸ rfl
  have gap : ∀ n : Notice, (∃ m m', n = .epochGap m m') → n.sort = 0x61 := fun n ⟨m, m', same⟩ => same ▸ rfl
  refine ⟨store, settled, fun same => ?_, fun other => ?_, fun l seen differs far => ?_, fun near => ?_, fun peer => ?_⟩
  · rw [epoch]
    exact epochAtFrame_duplicate finds rfl same
  · obtain ⟨latest, seen, others, captured⟩ := epochAtFrame_captures (f := { cls := 0, source := x, body := .epoch e }) finds rfl
      other
    obtain ⟨first, second, third, fourth, fifth⟩ := chooseBank_spec s.epoch
    rw [epoch]
    refine ⟨_, latest, seen, others, by rw [captured], by rw [captured], by rw [captured], by rw [captured], fun k => ?_, first,
      second, third, fourth, fifth, fun filled => posted.notified group (epochAtFrame_posts_overrun finds rfl other filled),
      fun empty => silent _ 0x62 overrun (.inr rfl) fun n listed => ?_⟩
    · rw [captured]
      exact tabMap_getElem _ _ _
    · rintro ⟨m, rfl⟩
      obtain ⟨no, -⟩ | ⟨filled, -⟩ | no := epochAtFrame_sort finds rfl listed
      · obtain ⟨l, no⟩ := gapNotices_sort no
        cases no
      · exact empty filled
      · exact absurd no (by decide : (0x62 : Byte) ≠ 0x60)
  · exact posted.notified group (epochAtFrame_posts_gap finds rfl seen differs far)
  · refine silent _ 0x61 gap (.inl rfl) fun n listed => ?_
    rintro ⟨m, m', rfl⟩
    obtain ⟨no, other⟩ | ⟨-, no⟩ | no := epochAtFrame_sort finds rfl listed
    · obtain none | same | before := near
      · rw [gapNotices_of_next (.inl none)] at no
        exact absurd no List.not_mem_nil
      · exact other same
      · rw [gapNotices_of_next (.inr before)] at no
        exact absurd no List.not_mem_nil
    · cases no
    · exact absurd no (by decide : (0x61 : Byte) ≠ 0x60)
  · obtain ⟨access, other⟩ := behind peer
    have found : z.epoch = s.epoch ∧ z.pubs = s.pubs := by
      rw [state, afterRoster_eq, other]
      exact ⟨rfl, rfl⟩
    obtain ⟨waiting, none⟩ := epochAtFrame_request (z := z) (f := { cls := 0, source := x, body := .epoch e }) rfl
    rw [found.1, found.2, ← epoch, ← pubs] at waiting none
    refine ⟨fun waits => ?_, fun settled => ?_⟩
    · obtain ⟨request, latched, items, merged⟩ := waiting waits
      exact ⟨request, latched, items, posted.notified group merged⟩
    · obtain ⟨request, latched, items, captured⟩ := none settled
      have sort : ∀ n : Notice, (∃ o, n = .epochDone o) → n.sort ∈ [(0x60 : Byte)] := by
        rintro n ⟨o, rfl⟩
        exact List.mem_singleton.mpr (epochDone_sort o)
      refine ⟨request, latched, items, posted.unnotified (frameNotices_lack ((accessAtFrame_among _ _ _).lacks sort (by decide))
        ?_ ((rosterAtFrame_among _ _ _).lacks sort (by decide)) ((acceptanceAtFrame_among _ _ _ _).lacks sort (by decide))
        ((publicationAtFrame_among _ _ _).lacks sort (by decide)) ((continuityAtFrame_among _ _ _).lacks sort (by decide)) ?_)⟩
      · rw [sessionNotices_of_peer (f := { cls := 0, source := x, body := .epoch e }) peer]
        exact fun n listed => absurd listed List.not_mem_nil
      · rw [epochState_of_epoch _ rfl, ← state, captured]
        rintro n listed ⟨o, rfl⟩
        obtain ⟨gap, -⟩ | taken := capture_sort listed
        · obtain ⟨l, no⟩ := gapNotices_sort gap
          cases no
        · obtain ⟨m, no⟩ := captureInto_sort taken
          cases no

end Sys2Proof.Machine
end

section
/-! The publication timers, and what the Publication Unit does at the end of a CLEAN frame from a peer (R126, R129 to R132). -/

namespace Sys2Proof.Machine

/-! ## PERIODIC_TIMER_EXPIRY and HOLD_OFF_EXPIRY (R123, R126, R130) -/

theorem makePendingNew_of_repeat {s : State} {i : PubIndex} (active : (s.pubs.table[i]).state = .active)
    (value : (s.pubs.table[i]).hasValue = true) (waiting : (s.pubs.table[i]).item = some .repeatValue) :
    makePendingNew s i = s.updPub i fun e => { e with item := some .newValue } := by
  unfold makePendingNew
  dsimp only
  rw [if_pos ⟨active, value⟩, waiting]

theorem makePendingNew_entry (s : State) (i : PubIndex) :
    (makePendingNew s i).pubs.table[i] = { s.pubs.table[i] with item := (makePendingNew s i).pubs.table[i].item } := by
  unfold makePendingNew
  dsimp only
  split
  · split
    · exact (updPub_self s i _).trans (congrArg (fun item => ({ s.pubs.table[i] with item := item } : PubEntry))
        (congrArg PubEntry.item (updPub_self s i fun e => { e with item := some .newValue }) :).symm)
    · exact (updPub_self s i _).trans (congrArg (fun item => ({ s.pubs.table[i] with item := item } : PubEntry))
        (congrArg PubEntry.item (updPub_self s i fun e => { e with item := some .newValue }) :).symm)
    · rfl
  · rfl

/-- The periodic timer restarted with the full period. -/
def restartPeriod (s : State) (i : PubIndex) : State := s.updPub i fun e => { e with periodicTimer := millis e.period }

theorem restartPeriod_entry (s : State) (i : PubIndex) : (restartPeriod s i).pubs.table[i] =
    { s.pubs.table[i] with periodicTimer := some ((s.pubs.table[i]).period * 1000) } := updPub_self s i _

theorem periodicExpiry_def (s : State) (i : PubIndex) : periodicExpiry s i =
    if (s.pubs.table[i]).hasValue = false then restartPeriod s i
    else if (s.pubs.table[i]).inFlight then
      if (s.pubs.table[i]).item = some .repeatValue then
        (restartPeriod s i).updPub i fun e => { e with item := some .newValue, rePend := true }
      else restartPeriod s i
    else makePendingNew (restartPeriod s i) i := rfl

theorem periodicExpiry_still {s : State} {i : PubIndex}
    (still : (s.pubs.table[i]).hasValue = false ∨ (s.pubs.table[i]).item = some .newValue) :
    periodicExpiry s i = restartPeriod s i := by
  rw [periodicExpiry_def]
  obtain empty | new := still
  · exact if_pos empty
  · split
    · rfl
    · split
      · rw [if_neg (by rw [new]; exact nofun)]
      · exact makePendingNew_of_new (by rw [restartPeriod_entry]; exact new)

theorem periodicExpiry_flying {s : State} {i : PubIndex} (value : (s.pubs.table[i]).hasValue = true)
    (flying : (s.pubs.table[i]).inFlight = true) (item : (s.pubs.table[i]).item = some .repeatValue) :
    periodicExpiry s i = (restartPeriod s i).updPub i fun e => { e with item := some .newValue, rePend := true } := by
  rw [periodicExpiry_def, if_neg (by rw [value]; exact nofun), if_pos flying, if_pos item]

theorem periodicExpiry_landed {s : State} {i : PubIndex} (value : (s.pubs.table[i]).hasValue = true)
    (landed : (s.pubs.table[i]).inFlight = false) : periodicExpiry s i = makePendingNew (restartPeriod s i) i := by
  rw [periodicExpiry_def, if_neg (by rw [value]; exact nofun), if_neg (by rw [landed]; exact nofun)]

theorem periodicExpiry_others {s : State} {i j : PubIndex} (other : j ≠ i) :
    (periodicExpiry s i).pubs.table[j] = s.pubs.table[j] := by
  have restarted : (restartPeriod s i).pubs.table[j] = s.pubs.table[j] := updPub_other s _ other
  rw [periodicExpiry_def]
  split
  · exact restarted
  · split
    · split
      · exact (updPub_other _ _ other).trans restarted
      · exact restarted
    · exact (makePendingNew_other other).trans restarted

theorem periodicExpiry_timer (s : State) (i : PubIndex) :
    (periodicExpiry s i).pubs.table[i].periodicTimer = some ((s.pubs.table[i]).period * 1000) := by
  have restarted := congrArg PubEntry.periodicTimer (restartPeriod_entry s i)
  rw [periodicExpiry_def]
  split
  · exact restarted
  · split
    · split
      · exact (congrArg PubEntry.periodicTimer (updPub_self _ _ _) :).trans restarted
      · exact restarted
    · rw [makePendingNew_entry]
      exact restarted

theorem exec_periodicTimerExpiry_of_running {s : State} {i : PubIndex} (running : s.held = false)
    (timed : (s.pubs.table[i]).periodicTimer.isSome = true) :
    exec (.periodicTimerExpiry i) s = .next (settleBooking (periodicExpiry s i)) :=
  (congrArg Host.Outcome.next (whenRunning_running s _ running)).trans (congrArg Host.Outcome.next (if_pos timed))

/-- The Publication Unit after PERIODIC_TIMER_EXPIRY, by the item that is pending (R122, R126). -/
theorem periodicExpiry_pubs (s : State) (i : PubIndex) :
    let p := (periodicExpiry s i).pubs
    ((s.pubs.table[i]).hasValue = false ∨ (s.pubs.table[i]).item = some .newValue →
      p = { s.pubs with table := p.table } ∧
      p.table[i] = { s.pubs.table[i] with periodicTimer := some ((s.pubs.table[i]).period * 1000) }) ∧
    ((s.pubs.table[i]).state = .active → (s.pubs.table[i]).hasValue = true → (s.pubs.table[i]).item = some .repeatValue →
      p = { s.pubs with table := p.table } ∧
      ((s.pubs.table[i]).inFlight = false → p.table[i] = { s.pubs.table[i] with
        periodicTimer := some ((s.pubs.table[i]).period * 1000), item := some .newValue }) ∧
      ((s.pubs.table[i]).inFlight = true → p.table[i] = { s.pubs.table[i] with
        periodicTimer := some ((s.pubs.table[i]).period * 1000), item := some .newValue, rePend := true })) ∧
    ((s.pubs.table[i]).state = .active → (s.pubs.table[i]).hasValue = true → (s.pubs.table[i]).inFlight = false →
      (s.pubs.table[i]).item = none →
      p.table[i] = { s.pubs.table[i] with
        periodicTimer := some ((s.pubs.table[i]).period * 1000), item := some .newValue } ∧
      p.items = insertItem { kind := .update i, cls := (s.pubs.table[i]).cls, attempts := 0, placed := s.pubs.placements }
        s.pubs.items) := by
  have entry := restartPeriod_entry s i
  dsimp only
  refine ⟨fun still => ?_, fun active value item => ?_, fun active value landed none => ?_⟩
  · rw [periodicExpiry_still still]
    exact ⟨rfl, entry⟩
  · by_cases flying : (s.pubs.table[i]).inFlight = true
    · rw [periodicExpiry_flying value flying item]
      exact ⟨rfl, fun landed => absurd (landed.symm.trans flying) Bool.false_ne_true,
        fun _ => (updPub_self _ _ _).trans (by rw [entry])⟩
    · rw [periodicExpiry_landed value (Bool.not_eq_true _ ▸ flying), makePendingNew_of_repeat (by rw [entry]; exact active)
        (by rw [entry]; exact value) (by rw [entry]; exact item)]
      exact ⟨rfl, fun _ => (updPub_self _ _ _).trans (by rw [entry]), fun flies => absurd flies flying⟩
  · rw [periodicExpiry_landed value landed, makePendingNew_of_no_item (by rw [entry]; exact active)
      (by rw [entry]; exact value) (by rw [entry]; exact none)]
    refine ⟨(updPub_self _ _ _).trans (by rw [entry]), ?_⟩
    have cls := congrArg PubEntry.cls entry
    generalize ((restartPeriod s i).pubs.table[i]).cls = c at cls ⊢
    rw [cls]
    rfl

/-! ## A peer's RECALL (R129, R130) -/

theorem activeEntry_eq_some {s : State} {topic : Topic} {i : PubIndex} (differ : s.pubs.topicsDiffer)
    (active : (s.pubs.table[i]).state = .active) (same : (s.pubs.table[i]).topic = topic) : activeEntry s topic = some i := by
  refine tabFind_eq_some ?_ fun j low => ?_
  · simp only [Bool.and_eq_true, beq_iff_eq]
    exact ⟨active, same⟩
  · rw [← Bool.not_eq_true]
    simp only [Bool.and_eq_true, beq_iff_eq]
    rintro ⟨active', same'⟩
    exact low.ne (differ j i (by rw [active']; exact nofun) (by rw [active]; exact nofun) (same'.trans same.symm))

theorem activeEntry_eq_none {s : State} {topic : Topic}
    (other : ∀ i : PubIndex, (s.pubs.table[i]).state = .active → (s.pubs.table[i]).topic ≠ topic) :
    activeEntry s topic = none := by
  refine tabFind_eq_none fun i => ?_
  rw [← Bool.not_eq_true]
  simp only [Bool.and_eq_true, beq_iff_eq]
  exact fun ⟨active, same⟩ => other i active same

theorem answerPeer_of_found {s : State} {topic : Topic} {i : PubIndex} (found : activeEntry s topic = some i) :
    answerPeer s topic =
      if s.session.state ≠ .member ∨ (s.pubs.table[i]).hasValue = false ∨ (s.pubs.table[i]).holdOff.isSome then s
      else if (s.pubs.table[i]).item.isSome then startHoldOff s i
      else if (s.pubs.table[i]).dirty then startHoldOff (makePendingNew s i) i
      else startHoldOff (makePendingRepeat s i) i := by
  simp only [answerPeer, found]

/-- Nothing to answer with, or answered already (R129, R130). -/
theorem answerPeer_of_mute {s : State} {topic : Topic}
    (mute : s.session.state ≠ .member ∨ ∀ i : PubIndex, (s.pubs.table[i]).state = .active → (s.pubs.table[i]).topic = topic →
      (s.pubs.table[i]).hasValue = false ∨ (s.pubs.table[i]).holdOff.isSome = true) : answerPeer s topic = s := by
  cases found : activeEntry s topic with
  | none => simp only [answerPeer, found]
  | some i =>
    rw [answerPeer_of_found found]
    obtain ⟨active, same⟩ := activeEntry_some found
    exact if_pos (mute.imp id fun silent => silent i active same)

theorem startHoldOff_entry {s : State} {rec : Record} (recorded : s.session.record = some rec) (i : PubIndex) :
    (startHoldOff s i).pubs.table[i] = { s.pubs.table[i] with holdOff := some (rec.recallHoldOff * 1000) } := by
  have field : recordField s Record.recallHoldOff = rec.recallHoldOff := by
    unfold recordField
    rw [recorded]
  have held : millis (recordField s Record.recallHoldOff) = some (rec.recallHoldOff * 1000) := by rw [field]; rfl
  rw [← held]
  exact updPub_self s i _

section Answer

variable {s : State} {rec : Record} {topic : Topic} {i : PubIndex}

/-- An item made pending, and the hold-off started, for an entry without an item. -/
theorem holdOff_placed (recorded : s.session.record = some rec) (item : UpdateKind) :
    let t := startHoldOff (placeItem (s.updPub i fun e => { e with item := some item }) (.update i) (s.pubs.table[i]).cls) i
    (∀ j : PubIndex, j ≠ i → t.pubs.table[j] = s.pubs.table[j]) ∧
    t.pubs.items = insertItem { kind := .update i, cls := (s.pubs.table[i]).cls, attempts := 0, placed := s.pubs.placements }
      s.pubs.items ∧
    t.pubs.table[i] = { s.pubs.table[i] with holdOff := some (rec.recallHoldOff * 1000), item := some item } := by
  have entry : (placeItem (s.updPub i fun e => { e with item := some item }) (.update i) (s.pubs.table[i]).cls).pubs.table[i] =
      { s.pubs.table[i] with item := some item } := updPub_self s i _
  have held := startHoldOff_entry (s := placeItem (s.updPub i fun e => { e with item := some item }) (.update i)
    (s.pubs.table[i]).cls) recorded i
  rw [entry] at held
  exact ⟨fun j other => (updPub_other _ _ other).trans (updPub_other s _ other), rfl, held⟩

/-- An own topic with a value is answered for, and its hold-off starts (R129, R130). -/
theorem answerPeer_answers (differ : s.pubs.topicsDiffer) (recorded : s.session.record = some rec)
    (member : s.session.state = .member) (active : (s.pubs.table[i]).state = .active) (same : (s.pubs.table[i]).topic = topic)
    (value : (s.pubs.table[i]).hasValue = true) (ready : (s.pubs.table[i]).holdOff = none) :
    let t := answerPeer s topic
    (∀ j : PubIndex, j ≠ i → t.pubs.table[j] = s.pubs.table[j]) ∧
    ((s.pubs.table[i]).item ≠ none → t.pubs.items = s.pubs.items ∧
      t.pubs.table[i] = { s.pubs.table[i] with holdOff := some (rec.recallHoldOff * 1000) }) ∧
    ((s.pubs.table[i]).item = none →
      t.pubs.items = insertItem { kind := .update i, cls := (s.pubs.table[i]).cls, attempts := 0, placed := s.pubs.placements }
        s.pubs.items ∧
      t.pubs.table[i] = { s.pubs.table[i] with
        holdOff := some (rec.recallHoldOff * 1000),
        item := some (if (s.pubs.table[i]).dirty then .newValue else .repeatValue) }) := by
  have answers : ¬ (s.session.state ≠ .member ∨ (s.pubs.table[i]).hasValue = false ∨
      (s.pubs.table[i]).holdOff.isSome = true) := by
    rw [member, value, ready]
    simp
  dsimp only
  rw [answerPeer_of_found (activeEntry_eq_some differ active same), if_neg answers]
  by_cases item : (s.pubs.table[i]).item = none
  · have free : ¬ (s.pubs.table[i]).item.isSome = true := by
      rw [item]
      exact nofun
    rw [if_neg free]
    by_cases dirty : (s.pubs.table[i]).dirty = true
    · rw [if_pos dirty, if_pos dirty, makePendingNew_of_no_item active value item]
      obtain ⟨others, items, entry⟩ := holdOff_placed (i := i) recorded .newValue
      exact ⟨others, fun some => absurd item some, fun _ => ⟨items, entry⟩⟩
    · rw [if_neg dirty, if_neg dirty]
      obtain ⟨others, items, entry⟩ := holdOff_placed (i := i) recorded .repeatValue
      exact ⟨others, fun some => absurd item some, fun _ => ⟨items, entry⟩⟩
  · rw [if_pos (Option.isSome_iff_ne_none.mpr item)]
    exact ⟨fun j other => updPub_other s _ other, fun _ => ⟨rfl, startHoldOff_entry recorded i⟩, fun none => absurd none item⟩

end Answer

/-! ## A peer's UPDATE for an own topic (R131, R132) -/

theorem ownershipConflict_of_none {s : State} {topic : Topic} (x : Station) (none : activeEntry s topic = none) :
    ownershipConflict s topic x = (s, []) := by
  simp only [ownershipConflict, none]

/-- An entry has no item, a waiting REPEAT or a waiting NEW (R122). -/
theorem item_cases (item : Option UpdateKind) : item = none ∨ item = some .repeatValue ∨ item = some .newValue := by
  cases item with
  | none => exact .inl rfl
  | some k =>
    cases k with
    | repeatValue => exact .inr (.inl rfl)
    | newValue => exact .inr (.inr rfl)

section Conflict

variable {s : State} {topic : Topic} {i : PubIndex} {x : Station}

theorem ownershipConflict_of_lower (found : activeEntry s topic = some i) (lower : x < ownNumber s) :
    ownershipConflict s topic x =
      (removeItem (s.updPub i fun e => e.yieldTo x) (.update i), [.publicationYielded i x]) := by
  simp only [ownershipConflict, found]
  exact if_pos lower

theorem ownershipConflict_of_higher (found : activeEntry s topic = some i) (higher : ownNumber s < x) :
    ownershipConflict s topic x =
      (if s.session.state = .member then makePendingNew (s.updPub i fun e => { e with conflict := some x }) i
        else s.updPub i fun e => { e with conflict := some x }, [.conflictObserved i x]) := by
  simp only [ownershipConflict, found]
  exact (if_neg (lt_asymm higher)).trans (if_pos higher)

theorem ownershipConflict_others (found : activeEntry s topic = some i) {j : PubIndex} (other : j ≠ i) :
    (ownershipConflict s topic x).1.pubs.table[j] = s.pubs.table[j] := by
  rcases lt_trichotomy x (ownNumber s) with lower | same | higher
  · rw [ownershipConflict_of_lower found lower]
    exact updPub_other s _ other
  · have neither : ownershipConflict s topic x = (s, []) := by
      simp only [ownershipConflict, found]
      rw [if_neg (same ▸ lt_irrefl _), if_neg (same ▸ lt_irrefl _)]
    rw [neither]
  · rw [ownershipConflict_of_higher found higher]
    dsimp only
    split
    · exact (makePendingNew_other other).trans (updPub_other s _ other)
    · exact updPub_other s _ other

/-- The topic is yielded to a lower station (R131). -/
theorem ownershipConflict_yields (found : activeEntry s topic = some i) (lower : x < ownNumber s) :
    let p := ownershipConflict s topic x
    p.1.pubs.table[i] = { s.pubs.table[i] with
      state := .yielded, yieldedTo := some x, item := none, periodicTimer := none, holdOff := none,
      writtenSinceLatch := false, rePend := false } ∧
    p.1.pubs.items = (s.pubs.items.filter fun it => it.kind != .update i) ∧ p.2 = [.publicationYielded i x] := by
  dsimp only
  rw [ownershipConflict_of_lower found lower]
  exact ⟨updPub_self s i _, rfl, rfl⟩

/-- The topic is asserted against a higher station (R132). -/
theorem ownershipConflict_asserts (found : activeEntry s topic = some i) (higher : ownNumber s < x) :
    let p := ownershipConflict s topic x
    p.2 = [.conflictObserved i x] ∧
    (s.session.state ≠ .member ∨ (s.pubs.table[i]).hasValue = false → p.1.pubs.items = s.pubs.items ∧
      p.1.pubs.table[i] = { s.pubs.table[i] with conflict := some x }) ∧
    (s.session.state = .member → (s.pubs.table[i]).hasValue = true →
      p.1.pubs.table[i] = { s.pubs.table[i] with conflict := some x, item := some .newValue } ∧
      ((s.pubs.table[i]).item ≠ none → p.1.pubs.items = s.pubs.items) ∧
      ((s.pubs.table[i]).item = none → p.1.pubs.items =
        insertItem { kind := .update i, cls := (s.pubs.table[i]).cls, attempts := 0, placed := s.pubs.placements }
          s.pubs.items)) := by
  obtain ⟨active, -⟩ := activeEntry_some found
  have entry : (s.updPub i fun e => { e with conflict := some x }).pubs.table[i] =
      { s.pubs.table[i] with conflict := some x } := updPub_self s i _
  dsimp only
  rw [ownershipConflict_of_higher found higher]
  refine ⟨rfl, fun mute => ?_, fun member value => ?_⟩
  · dsimp only
    split
    · rename_i member
      rw [makePendingNew_of_no_value (by rw [entry]; exact mute.resolve_left fun outside => outside member)]
      exact ⟨rfl, entry⟩
    · exact ⟨rfl, entry⟩
  · dsimp only
    rw [if_pos member]
    have active' : ((s.updPub i fun e => { e with conflict := some x }).pubs.table[i]).state = .active := by rw [entry]; exact active
    have value' : ((s.updPub i fun e => { e with conflict := some x }).pubs.table[i]).hasValue = true := by rw [entry]; exact value
    obtain none | waiting | new := item_cases (s.pubs.table[i]).item
    · rw [makePendingNew_of_no_item active' value' (by rw [entry]; exact none)]
      refine ⟨(updPub_self _ i _).trans (by rw [entry]), fun some => absurd none some, fun _ => ?_⟩
      have cls := congrArg PubEntry.cls entry
      generalize ((s.updPub i fun e => { e with conflict := some x }).pubs.table[i]).cls = c at cls ⊢
      rw [cls]
      rfl
    · rw [makePendingNew_of_repeat active' value' (by rw [entry]; exact waiting)]
      exact ⟨(updPub_self _ i _).trans (by rw [entry]), fun _ => rfl, fun none => by rw [none] at waiting; cases waiting⟩
    · rw [makePendingNew_of_new (by rw [entry]; exact new)]
      exact ⟨entry.trans (by rw [← new]), fun _ => rfl, fun none => by rw [none] at new; cases new⟩

end Conflict

/-! ## The end of a peer's frame -/

/-- A clean frame's end is the end of a peer's frame: what the Publication Unit finds, and the blocks behind it. -/
theorem CleanEnd.published {s t : State} {levels : List LineLevel} {r : Reception} {f : Frame} (h : CleanEnd s t levels r f)
    (foreign : r.own = false) (peer : f.source ≠ ownNumber s) :
    ∃ x : State, x = afterAcceptance false (impliedHeader levels s r).2 f (framed s levels r) ∧
      x.pubs = s.pubs ∧ x.session = s.session ∧ x.cont.recalls = s.cont.recalls ∧ x.epoch = s.epoch ∧
      t.pubs = (epochAtFrame false f (continuityAtFrame false f (publicationAtFrame false f x).1).1).1.pubs ∧
      t.cont.recalls = (continuityAtFrame false f (publicationAtFrame false f x).1).1.cont.recalls ∧
      FramePosted s t (frameNotices false (impliedHeader levels s r).2 f (framed s levels r)) ∧
      (publicationAtFrame false f x).2 ∈ frameNotices false (impliedHeader levels s r).2 f (framed s levels r) ∧
      (continuityAtFrame false f (publicationAtFrame false f x).1).2 ∈
        frameNotices false (impliedHeader levels s r).2 f (framed s levels r) := by
  obtain ⟨access, behind⟩ := afterSession_framed (levels := levels) (r := r) peer
  have posted := h.posted
  have state := afterAcceptance_eq false (impliedHeader levels s r).2 f (framed s levels r)
  have recalls : (afterAcceptance false (impliedHeader levels s r).2 f (framed s levels r)).cont.recalls = s.cont.recalls := by
    unfold afterAcceptance afterRoster
    rw [acceptanceAtFrame_recalls, rosterAtFrame_recalls, behind]
  have pubs : t.pubs = (acted s levels r f).pubs := h.pubs
  have cont : t.cont.recalls = (acted s levels r f).cont.recalls := congrArg ContinuityUnit.recalls h.cont
  have epoch := fun u => congrArg (fun u : State => u.cont.recalls) (epochAtFrame_eq false f u)
  unfold acted afterBlocks at pubs cont
  rw [foreign] at posted pubs cont
  rw [behind] at state
  refine ⟨_, rfl, ?_, ?_, recalls, ?_, pubs, cont.trans (epoch _), posted, ?_, ?_⟩
  · rw [state]
  · rw [state]
  · rw [state]
  · unfold frameNotices
    simp only [List.mem_cons, true_or, or_true]
  · unfold frameNotices
    simp only [List.mem_cons, true_or, or_true]

theorem epochAtFrame_of_other {own : Bool} {f : Frame} (s : State) (other : ∀ e, f.body ≠ .epoch e) :
    epochAtFrame own f s = (s, []) := by
  unfold epochAtFrame
  split
  · rename_i body
    exact absurd body (other _)
  all_goals rfl

theorem recallAt_congr {s x : State} (recalls : x.cont.recalls = s.cont.recalls) (topic : Topic) :
    recallAt x topic = recallAt s topic := by
  unfold recallAt
  rw [recalls]

theorem publicationAtFrame_of_update {f : Frame} {first again : Bool} {topic : Topic} {seq : SeqNo} {payload : List Byte}
    (s : State) (body : f.body = .update first again topic seq payload) :
    publicationAtFrame false f s = ownershipConflict s topic f.source := by
  simp only [publicationAtFrame, body]
  exact if_neg Bool.false_ne_true

theorem publicationAtFrame_of_recall {f : Frame} {topic : Topic} (s : State) (body : f.body = .recallFor topic) :
    publicationAtFrame false f s = (answerPeer s topic, []) := by
  simp only [publicationAtFrame, body]
  exact if_neg Bool.false_ne_true

theorem continuityAtFrame_of_update {own : Bool} {f : Frame} {first again : Bool} {topic : Topic} {seq : SeqNo}
    {payload : List Byte} (s : State) (body : f.body = .update first again topic seq payload) :
    continuityAtFrame own f s = answerRecall s topic := by
  simp only [continuityAtFrame, body]

theorem continuityAtFrame_of_recall {f : Frame} {topic : Topic} (s : State) (body : f.body = .recallFor topic) :
    continuityAtFrame false f s = (suppressRecall s topic, []) := by
  simp only [continuityAtFrame, body]
  exact if_neg Bool.false_ne_true

theorem answerRecall_of_none {s : State} {topic : Topic} (none : recallAt s topic = none) :
    answerRecall s topic = (s, []) := by
  simp only [answerRecall, none]

theorem suppressRecall_of_none {s : State} {topic : Topic} (none : recallAt s topic = none) :
    suppressRecall s topic = s := by
  simp only [suppressRecall, none]

/-- Settles O27: the two expiries are `periodicExpiry` and the hold-off cleared, and the Publication Unit's part of a peer's
frame is `answerPeer` or `ownershipConflict`, which no recall of the same topic follows. -/
theorem publicationTimersExpire : Obligations.PublicationTimersExpire := by
  refine ⟨fun s i running => ⟨fun timed => ?_, ?_⟩, fun s rec levels r f topic foreign recorded peer differ unrecalled =>
    ⟨fun body => ?_, fun first again seq payload body => ?_⟩⟩
  · have expired := periodicExpiry_eq s i
    have others := fun j other => periodicExpiry_others (s := s) (i := i) (j := j) other
    have timer := periodicExpiry_timer s i
    obtain ⟨still, waiting, empty⟩ := periodicExpiry_pubs s i
    have next := exec_periodicTimerExpiry_of_running running timed
    generalize periodicExpiry s i = u at *
    obtain ⟨b, booked, settled⟩ := settleBooking_with (s := s) (u := u) (by rw [expired]; rfl) (by rw [expired]; rfl)
      (by rw [expired]; rfl)
    rw [booked] at next
    exact ⟨_, next, by rw [expired]; rfl, settled, timer, others, still, waiting, empty⟩
  · exact ⟨_, congrArg Host.Outcome.next (whenRunning_running s _ running), updPub_self s i _,
      fun j other => updPub_other s _ other, rfl⟩
  · obtain ⟨t, next, ended⟩ := foreign.next
    have settled := ended.settled_of_foreign foreign.isForeign
    obtain ⟨x, -, pubs, session, recalls, -, published, -⟩ :=
      ended.published foreign.isForeign (ownNumber_of_record recorded ▸ peer)
    have silent : ∀ u : State, u.cont.recalls = x.cont.recalls → recallAt u topic = none := fun u same =>
      (recallAt_congr (same.trans recalls) topic).trans (recallAt_eq_none unrecalled)
    have answered : (answerPeer x topic).cont.recalls = x.cont.recalls := by rw [answerPeer_eq]; rfl
    rw [publicationAtFrame_of_recall x body, continuityAtFrame_of_recall _ body, suppressRecall_of_none (silent _ answered),
      epochAtFrame_of_other _ (by rw [body]; exact nofun)] at published
    rw [← pubs, ← session]
    rw [← session] at recorded
    rw [← pubs] at differ
    refine ⟨t, next, settled, ?_⟩
    rw [published]
    exact ⟨fun mute => congrArg State.pubs (answerPeer_of_mute mute),
      fun i member active same value ready => answerPeer_answers differ recorded member active same value ready⟩
  · obtain ⟨t, next, ended⟩ := foreign.next
    have settled := ended.settled_of_foreign foreign.isForeign
    obtain ⟨x, -, pubs, session, recalls, -, published, -, posted, group, -⟩ :=
      ended.published foreign.isForeign (ownNumber_of_record recorded ▸ peer)
    have own : ownNumber x = rec.station := ownNumber_of_record (session ▸ recorded)
    have kept : (ownershipConflict x topic f.source).1.cont.recalls = x.cont.recalls := by rw [ownershipConflict_eq]; rfl
    have silent : recallAt (ownershipConflict x topic f.source).1 topic = none :=
      (recallAt_congr (kept.trans recalls) topic).trans (recallAt_eq_none unrecalled)
    rw [publicationAtFrame_of_update x body, continuityAtFrame_of_update _ body, answerRecall_of_none silent,
      epochAtFrame_of_other _ (by rw [body]; exact nofun)] at published
    rw [publicationAtFrame_of_update x body] at group
    rw [← pubs, ← session, ← own]
    rw [← pubs] at differ
    refine ⟨t, next, settled, ?_⟩
    rw [published]
    refine ⟨fun other => by rw [ownershipConflict_of_none _ (activeEntry_eq_none other)],
      fun i active same => ?_⟩
    have found := activeEntry_eq_some differ active same
    refine ⟨fun j other => ownershipConflict_others found other, fun lower => ?_, fun higher => ?_⟩
    · obtain ⟨entry, items, notices⟩ := ownershipConflict_yields found lower
      exact ⟨entry, items, posted.notified group (by rw [notices]; exact List.mem_cons_self)⟩
    · obtain ⟨notices, mute, sends⟩ := ownershipConflict_asserts found higher
      exact ⟨posted.notified group (by rw [notices]; exact List.mem_cons_self), mute, sends⟩

end Sys2Proof.Machine
end

section
/-! The recall wait, and what the Continuity Unit does at the end of a CLEAN frame from a peer (R149 to R151). -/

namespace Sys2Proof.Machine

/-! ## RECALL_DEADLINE_EXPIRY (R151) -/

theorem updRecall_self (s : State) (p : RecallPos) (g : RecallEntry → RecallEntry) :
    (s.updRecall p g).cont.recalls[p] = g s.cont.recalls[p] := upd_getElem_self _ _ _

theorem updRecall_other {p q : RecallPos} (s : State) (g : RecallEntry → RecallEntry) (other : q ≠ p) :
    (s.updRecall p g).cont.recalls[q] = s.cont.recalls[q] := upd_getElem_of_ne _ _ other.symm

theorem waits_of_deadline {e : RecallEntry} (waiting : e.state = .sent ∨ e.state = .suppressed)
    (timed : e.deadline.isSome = true) : e.waits = true := by
  unfold RecallEntry.waits
  rw [timed, Bool.and_true, Bool.or_eq_true, beq_iff_eq, beq_iff_eq]
  exact waiting

theorem recallExpiry_of_first {s : State} {p : RecallPos} (first : (s.cont.recalls[p]).expiries = 0) :
    recallExpiry p s = (placeItem (s.updRecall p fun e => { e with state := .waiting, expiries := 1, deadline := none })
      (.recallItem (s.cont.recalls[p]).topic) 1, []) := if_pos first

theorem recallExpiry_of_second {s : State} {p : RecallPos} (second : (s.cont.recalls[p]).expiries ≠ 0) :
    recallExpiry p s = (s.updRecall p fun _ => RecallEntry.initial,
      [.recallDone (s.cont.recalls[p]).topic .unanswered]) := if_neg second

theorem exec_recallDeadlineExpiry_of_running {s : State} {p : RecallPos} (running : s.held = false)
    (waits : (s.cont.recalls[p]).waits = true) :
    exec (.recallDeadlineExpiry p) s = .next (settleBooking (recallExpiry p s).done) :=
  (congrArg Host.Outcome.next (whenRunning_running s _ running)).trans (congrArg Host.Outcome.next (if_pos waits))

/-- The wait that runs out, with its notices and the booking. -/
theorem recallExpiry_settled {s : State} {p : RecallPos} (running : s.held = false)
    (waits : (s.cont.recalls[p]).waits = true) : ∃ b,
      let t := { s with
        access := { s.access with booking := b }, pubs := (recallExpiry p s).1.pubs, cont := (recallExpiry p s).1.cont,
        port := (postAll s (recallExpiry p s).2).port }
      exec (.recallDeadlineExpiry p) s = .next t ∧ SettledBooking s t := by
  have next := exec_recallDeadlineExpiry_of_running running waits
  have expired := recallExpiry_eq p s
  rw [done_def] at next
  generalize recallExpiry p s = e at next expired ⊢
  obtain ⟨u, ns⟩ := e
  dsimp only at next expired ⊢
  obtain ⟨b, booked, settled⟩ := settleBooking_postAll (s := s) (r := s) (u := u) (by rw [expired]; rfl) (by rw [expired]; rfl)
    (by rw [expired]; rfl) (by rw [expired]; rfl) (by rw [expired]; rfl) ns
  rw [booked] at next
  refine ⟨b, ?_⟩
  obtain ⟨cont, pubs, rfl⟩ : ∃ cont pubs, u = (s.setCont cont).setPubs pubs := ⟨_, _, expired⟩
  exact ⟨next, settled⟩

/-! ## A peer's RECALL and an UPDATE (R149, R150) -/

section Recall

variable {s : State} {topic : Topic} {p : RecallPos}

theorem suppressRecall_of_waiting (found : recallAt s topic = some p) (waiting : (s.cont.recalls[p]).state = .waiting) :
    suppressRecall s topic =
      removeItem (s.updRecall p fun e => { e with state := .suppressed, deadline := recallWait s }) (.recallItem topic) := by
  simp only [suppressRecall, found]
  exact if_pos waiting

theorem suppressRecall_of_sent (found : recallAt s topic = some p) (sent : (s.cont.recalls[p]).state ≠ .waiting) :
    suppressRecall s topic = s := by
  simp only [suppressRecall, found]
  exact if_neg sent

theorem suppressRecall_others (found : recallAt s topic = some p) {q : RecallPos} (other : q ≠ p) :
    (suppressRecall s topic).cont.recalls[q] = s.cont.recalls[q] := by
  by_cases waiting : (s.cont.recalls[p]).state = .waiting
  · rw [suppressRecall_of_waiting found waiting]
    exact updRecall_other s _ other
  · rw [suppressRecall_of_sent found waiting]

theorem answerRecall_of_found (found : recallAt s topic = some p) : answerRecall s topic =
    ((if (s.cont.recalls[p]).state = .waiting then removeItem s (.recallItem topic) else s).updRecall p
        fun _ => RecallEntry.initial,
      if (s.cont.recalls[p]).origin = .host then [.recallDone topic .answered] else []) := by
  simp only [answerRecall, found]

theorem answerRecall_cont (found : recallAt s topic = some p) :
    (answerRecall s topic).1.cont = (s.updRecall p fun _ => RecallEntry.initial).cont := by
  rw [answerRecall_of_found found]
  dsimp only
  split <;> rfl

theorem answerRecall_pubs (found : recallAt s topic = some p) : (answerRecall s topic).1.pubs =
    if (s.cont.recalls[p]).state = .waiting then { s.pubs with
      items := s.pubs.items.filter fun it => it.kind != .recallItem topic } else s.pubs := by
  rw [answerRecall_of_found found]
  dsimp only
  split <;> rfl

theorem answerRecall_notices (found : recallAt s topic = some p) : (answerRecall s topic).2 =
    if (s.cont.recalls[p]).origin = .host then [.recallDone topic .answered] else [] := by
  rw [answerRecall_of_found found]

end Recall

theorem recallWait_of_record {s : State} {rec : Record} (recorded : s.session.record = some rec) :
    recallWait s = some (rec.recallWait * 1000) := by
  unfold recallWait recordField
  rw [recorded]
  rfl

/-- A peer's frame after which the Continuity Unit has nothing to tell (R150). -/
theorem CleanEnd.unnotified_recall {s t : State} {levels : List LineLevel} {r : Reception} {f : Frame}
    (h : CleanEnd s t levels r f) (foreign : r.own = false) (peer : f.source ≠ ownNumber s)
    (silent : (continuityAtFrame false f (publicationAtFrame false f
      (afterAcceptance false (impliedHeader levels s r).2 f (framed s levels r))).1).2 = []) :
    unnotified s t fun n => ∃ topic o, n = .recallDone topic o := by
  have sort : ∀ n : Notice, (∃ topic o, n = .recallDone topic o) → n.sort ∈ [(0x40 : Byte)] := by
    rintro n ⟨topic, o, rfl⟩
    exact List.mem_singleton.mpr rfl
  have posted := h.posted
  rw [foreign] at posted
  refine posted.unnotified (frameNotices_lack ((accessAtFrame_among _ _ _).lacks sort (by decide)) ?_
    ((rosterAtFrame_among _ _ _).lacks sort (by decide)) ((acceptanceAtFrame_among _ _ _ _).lacks sort (by decide))
    ((publicationAtFrame_among _ _ _).lacks sort (by decide)) ?_ ((epochAtFrame_among _ _ _).lacks sort (by decide)))
  · rw [sessionNotices_of_peer peer]
    exact fun n listed => absurd listed List.not_mem_nil
  · rw [silent]
    exact fun n listed => absurd listed List.not_mem_nil

/-- Settles O28: the expiry is `recallExpiry`, and the Continuity Unit's part of a peer's frame is `suppressRecall` or
`answerRecall`, which no answer of an own publication comes before. -/
theorem recallWaitRunsOut : Obligations.RecallWaitRunsOut := by
  refine ⟨fun s p running waiting timed => ?_, fun s rec levels r f p foreign recorded peer fits busy unpublished =>
    ⟨fun body => ?_, fun first again seq payload body => ?_⟩⟩
  · obtain ⟨b, next, settled⟩ := recallExpiry_settled running (waits_of_deadline waiting timed)
    by_cases first : (s.cont.recalls[p]).expiries = 0
    · rw [recallExpiry_of_first first] at next settled
      exact ⟨_, next, rfl, settled, fun q other => updRecall_other s _ other,
        fun _ => ⟨updRecall_self s p _, rfl, rfl⟩, fun second => absurd first second⟩
    · rw [recallExpiry_of_second first] at next settled
      exact ⟨_, next, rfl, settled, fun q other => updRecall_other s _ other, fun second => absurd second first,
        fun _ => ⟨updRecall_self s p _, rfl, rfl⟩⟩
  · obtain ⟨t, next, ended⟩ := foreign.next
    have settled := ended.settled_of_foreign foreign.isForeign
    have foreigner := ownNumber_of_record recorded ▸ peer
    obtain ⟨x, -, pubs, session, recalls, -, published, continued, -⟩ := ended.published foreign.isForeign foreigner
    have found : recallAt x (s.cont.recalls[p]).topic = some p :=
      (recallAt_congr recalls _).trans (recallAt_eq_some fits busy rfl)
    have mute : answerPeer x (s.cont.recalls[p]).topic = x := by
      refine answerPeer_of_mute (.inr fun i active same => ?_)
      rw [pubs] at active same
      exact absurd same (unpublished i active)
    rw [publicationAtFrame_of_recall x body, continuityAtFrame_of_recall _ body] at published continued
    dsimp only at published continued
    rw [mute] at published continued
    rw [epochAtFrame_of_other _ (by rw [body]; exact nofun)] at published
    refine ⟨t, next, settled, fun q other => ?_, fun waiting => ?_, fun sent => ?_⟩
    · rw [continued, suppressRecall_others found other, recalls]
    · rw [← recalls] at waiting
      rw [continued, published, suppressRecall_of_waiting found waiting, ← recallWait_of_record (session ▸ recorded), ← pubs,
        ← recalls]
      exact ⟨updRecall_self x p _, rfl⟩
    · rw [← recalls] at sent
      rw [continued, published, suppressRecall_of_sent found sent, pubs, recalls]
      exact ⟨rfl, rfl⟩
  · obtain ⟨t, next, ended⟩ := foreign.next
    have settled := ended.settled_of_foreign foreign.isForeign
    have foreigner := ownNumber_of_record recorded ▸ peer
    have silent := ended.unnotified_recall foreign.isForeign foreigner
    obtain ⟨x, state, pubs, session, recalls, -, published, continued, posted, -, group⟩ :=
      ended.published foreign.isForeign foreigner
    have found : recallAt x (s.cont.recalls[p]).topic = some p :=
      (recallAt_congr recalls _).trans (recallAt_eq_some fits busy rfl)
    have unowned : activeEntry x (s.cont.recalls[p]).topic = none := activeEntry_eq_none fun i active same => by
      rw [pubs] at active same
      exact unpublished i active same
    rw [← state] at silent
    rw [publicationAtFrame_of_update x body, ownershipConflict_of_none _ unowned, continuityAtFrame_of_update _ body]
      at published continued group silent
    rw [epochAtFrame_of_other _ (by rw [body]; exact nofun)] at published
    rw [answerRecall_cont found] at continued
    have items := published.trans (answerRecall_pubs found)
    rw [answerRecall_notices found] at group silent
    rw [recalls, pubs] at items
    rw [recalls] at group silent
    refine ⟨t, next, settled, ?_, fun q other => ?_, fun waiting => ?_, fun sent => ?_, fun host => ?_, fun other => ?_⟩
    · rw [continued]
      exact updRecall_self x p _
    · rw [continued, updRecall_other x _ other, recalls]
    · rw [items, if_pos waiting]
    · rw [items, if_neg sent]
    · rw [if_pos host] at group
      exact posted.notified group List.mem_cons_self
    · exact silent (if_neg other)

end Sys2Proof.Machine
end

section
/-! The session timers, and a foreign frame that bears the own number (R44, R45, R47 to R49, R51). -/

namespace Sys2Proof.Machine

/-! ## LISTEN_WINDOW_EXPIRY and PRESENCE_TIMER_EXPIRY (R44, R49) -/

theorem exec_listenWindowExpiry_of_running {s : State} (running : s.held = false) (listening : s.session.state = .listening)
    (timed : s.session.listenWindow.isSome = true) :
    exec .listenWindowExpiry s = .next (settleBooking (startClaiming s)) :=
  (congrArg Host.Outcome.next (whenRunning_running s _ running)).trans
    (congrArg Host.Outcome.next (if_pos ⟨listening, timed⟩))

theorem exec_presenceTimerExpiry_of_running {s : State} (running : s.held = false)
    (timed : s.session.presenceTimer.isSome = true) :
    exec .presenceTimerExpiry s = .next (settleBooking (presenceExpiry s)) :=
  (congrArg Host.Outcome.next (whenRunning_running s _ running)).trans (congrArg Host.Outcome.next (if_pos timed))

theorem restartPresence_of_record {s : State} {r : Record} (recorded : s.session.record = some r) :
    restartPresence s = s.setSession { s.session with presenceTimer := some (r.presenceInterval * 10 * 1000) } := by
  have time : presenceTime s = some (r.presenceInterval * 10 * 1000) := by
    unfold presenceTime recordField
    rw [recorded]
    rfl
  unfold restartPresence
  rw [time]

theorem presenceExpiry_of_waiting {s : State} (waiting : ∃ it ∈ s.pubs.items, it.isPresence = true) :
    presenceExpiry s = restartPresence s := if_pos (List.any_eq_true.mpr waiting)

theorem presenceExpiry_of_none {s : State} (none : ∀ it ∈ s.pubs.items, it.isPresence = false) :
    presenceExpiry s = placeItem (restartPresence s) (.presence false) 7 :=
  if_neg fun waiting => by
    obtain ⟨it, listed, presence⟩ := List.any_eq_true.mp waiting
    exact Bool.false_ne_true ((none it listed).symm.trans presence)

/-! ## A defence (R48) -/

/-- What `Defended` says, of the transmit lists. -/
theorem defended_iff (s t : State) : Defended s t ↔
    ((∀ it ∈ s.pubs.items, it.isPresence = false) →
      ∃ it ∈ t.pubs.items, it.kind = .presence true ∧ it.cls = 0 ∧ it.attempts = 0) ∧
    (∀ old ∈ s.pubs.items, old.kind = .presence true → (∀ it ∈ s.pubs.items, it.kind ≠ .presence false) →
      old ∈ t.pubs.items) ∧
    (∀ old ∈ s.pubs.items, old.kind = .presence false → (∀ it ∈ s.pubs.items, it.isPresence = true → it = old) →
      (∃ it ∈ t.pubs.items, it.kind = .presence true ∧ it.cls = 0 ∧ it.attempts = old.attempts ∧
        it.placed = s.pubs.placements) ∧
      ∀ it ∈ t.pubs.items, it.kind ≠ .presence false) := Iff.rfl

theorem isPresence_iff (it : Item) : it.isPresence = true ↔ it.kind = .presence true ∨ it.kind = .presence false := by
  unfold Item.isPresence
  cases it.kind with
  | presence d => cases d <;> simp
  | claim => simp
  | epoch => simp
  | recallItem => simp
  | update => simp

/-- The items of the PRESENCE kind stay as they are. -/
def PresenceKept (s t : State) : Prop := ∀ it : Item, it.isPresence = true → (it ∈ t.pubs.items ↔ it ∈ s.pubs.items)

namespace PresenceKept

variable {s t u : State}

theorem of_items (items : t.pubs.items = s.pubs.items) : PresenceKept s t := fun it _ => by rw [items]

theorem trans (h : PresenceKept s t) (h' : PresenceKept t u) : PresenceKept s u := fun it presence =>
  (h' it presence).trans (h it presence)

theorem removeItem (s : State) {k : ItemKind} (other : ∀ d, k ≠ .presence d) : PresenceKept s (removeItem s k) :=
  fun it presence => by
    rw [removeItem_items, List.mem_filter]
    refine and_iff_left (bne_iff_ne.mpr fun same => ?_)
    obtain kind | kind := (isPresence_iff it).mp presence
    · exact other true (same.symm.trans kind)
    · exact other false (same.symm.trans kind)

theorem placeItem (s : State) {k : ItemKind} (c : FrameClass) (other : ∀ d, k ≠ .presence d) :
    PresenceKept s (placeItem s k c) := fun it presence => by
  have items : (Machine.placeItem s k c).pubs.items = _ := placeWith_items s k c 0
  rw [items, mem_insertItem]
  refine or_iff_right fun same => ?_
  rw [same] at presence
  obtain kind | kind := (isPresence_iff _).mp presence
  · exact other true kind
  · exact other false kind

theorem makePendingNew (s : State) (i : PubIndex) : PresenceKept s (makePendingNew s i) := by
  unfold Machine.makePendingNew
  dsimp only
  split
  · split
    · exact (of_items (t := s.updPub i _) rfl).trans (.placeItem _ _ nofun)
    · exact of_items rfl
    · exact of_items rfl
  · exact of_items rfl

theorem publicationAtFrame (own : Bool) (f : Frame) (s : State) : PresenceKept s (publicationAtFrame own f s).1 := by
  have held : ∀ {u : State} i, PresenceKept s u → PresenceKept s (startHoldOff u i) := fun i kept =>
    kept.trans (of_items rfl)
  unfold Machine.publicationAtFrame ownershipConflict answerPeer
  split
  · exact of_items rfl
  · split
    · split
      · exact of_items rfl
      · split
        · exact (of_items (t := s.updPub _ _) rfl).trans (.removeItem _ nofun)
        · split
          · dsimp only
            split
            · exact (of_items (t := s.updPub _ _) rfl).trans (.makePendingNew _ _)
            · exact of_items rfl
          · exact of_items rfl
    · dsimp only
      split
      · exact of_items rfl
      · split
        · exact of_items rfl
        · split
          · exact held _ (of_items rfl)
          · split
            · exact held _ (.makePendingNew _ _)
            · exact held _ ((of_items (t := s.updPub _ _) rfl).trans (.placeItem _ _ nofun))
    all_goals exact of_items rfl

theorem continuityAtFrame (own : Bool) (f : Frame) (s : State) : PresenceKept s (continuityAtFrame own f s).1 := by
  unfold Machine.continuityAtFrame answerRecall suppressRecall
  split
  · split
    · dsimp only
      split
      · exact (PresenceKept.removeItem s (k := .recallItem _) nofun).trans (of_items rfl)
      · exact of_items rfl
    · exact of_items rfl
  · split
    · exact of_items rfl
    · dsimp only
      split
      · split
        · exact (of_items (t := s.updRecall _ _) rfl).trans (.removeItem _ nofun)
        · exact of_items rfl
      · exact of_items rfl
  all_goals exact of_items rfl

theorem epochAtFrame (own : Bool) (f : Frame) (s : State) : PresenceKept s (epochAtFrame own f s).1 := by
  unfold Machine.epochAtFrame
  split
  · rename_i e _
    obtain ⟨pubs, -⟩ := capture_keeps s e f.source
    refine (of_items (t := (capture s e f.source).1) (by rw [pubs])).trans ?_
    unfold settleRequest
    rw [andThen_fst]
    split
    · exact of_items rfl
    · split
      · exact (of_items (t := State.setEpoch _ _) rfl).trans (.removeItem _ nofun)
      · exact of_items rfl
  all_goals exact of_items rfl

end PresenceKept

/-- A defence (R48). -/
theorem defend_defended (s : State) : Defended s (defend s) := by
  rw [defended_iff]
  unfold defend
  cases found : s.pubs.items.find? Item.isPresence with
  | none =>
    have none := List.find?_eq_none.mp found
    refine ⟨fun _ => ⟨_, mem_insertItem.mpr (.inl rfl), rfl, rfl, rfl⟩, fun old listed kind _ => ?_, fun old listed kind _ => ?_⟩
    · exact absurd ((isPresence_iff old).mpr (.inl kind)) (none old listed)
    · exact absurd ((isPresence_iff old).mpr (.inr kind)) (none old listed)
  | some x =>
    have presence := List.find?_some found
    have listed := List.mem_of_find?_eq_some found
    dsimp only
    split
    · rename_i kind
      refine ⟨fun none => absurd presence (by rw [none x listed]; exact nofun), fun old listed' _ _ => listed',
        fun old listed' kind' only => ?_⟩
      have same := only x listed presence
      rw [← same, kind] at kind'
      cases kind'
    · rename_i kind
      have kind' := ((isPresence_iff x).mp presence).resolve_left kind
      refine ⟨fun none => absurd presence (by rw [none x listed]; exact nofun),
        fun old listed' _ never => absurd kind' (never x listed), fun old listed' _ only => ⟨?_, ?_⟩⟩
      · have same := only x listed presence
        exact ⟨_, mem_insertItem.mpr (.inl rfl), rfl, rfl, (congrArg Item.attempts same :), rfl⟩
      · intro it placed
        obtain rfl | kept := mem_insertItem.mp placed
        · exact nofun
        · exact bne_iff_ne.mp (List.mem_filter.mp kept).2

/-- A defence stays through what keeps the PRESENCE items. -/
theorem Defended.kept {s t u : State} (h : Defended s t) (kept : PresenceKept t u) : Defended s u := by
  rw [defended_iff] at h ⊢
  obtain ⟨none, stays, turned⟩ := h
  have carry : ∀ it : Item, it.kind = .presence true → it ∈ t.pubs.items → it ∈ u.pubs.items := fun it kind listed =>
    (kept it ((isPresence_iff it).mpr (.inl kind))).mpr listed
  refine ⟨fun absent => ?_, fun old listed kind never => carry old kind (stays old listed kind never),
    fun old listed kind only => ?_⟩
  · obtain ⟨it, placed, kind, rest⟩ := none absent
    exact ⟨it, carry it kind placed, kind, rest⟩
  · obtain ⟨⟨it, placed, kind', rest⟩, never⟩ := turned old listed kind only
    refine ⟨⟨it, carry it kind' placed, kind', rest⟩, fun x listed' kind'' => ?_⟩
    exact never x ((kept x ((isPresence_iff x).mpr (.inr kind''))).mp listed') kind''

/-! ## The blocks behind the Session Controller -/

/-- What the blocks behind the Session Controller find of its work, and what becomes of it. -/
theorem CleanEnd.behindSession {s t : State} {levels : List LineLevel} {r : Reception} {f : Frame}
    (h : CleanEnd s t levels r f) :
    let a := afterSession r.own f (framed s levels r)
    ∃ z : State, z = afterAcceptance r.own (impliedHeader levels s r).2 f (framed s levels r) ∧
      z.pubs = a.pubs ∧ z.session = a.session ∧ z.cont.recalls = a.cont.recalls ∧ z.epoch = a.epoch ∧
      t.session = a.session ∧
      t.pubs = (epochAtFrame r.own f (continuityAtFrame r.own f (publicationAtFrame r.own f z).1).1).1.pubs ∧
      t.epoch = (epochAtFrame r.own f (continuityAtFrame r.own f (publicationAtFrame r.own f z).1).1).1.epoch ∧
      t.cont.recalls = (continuityAtFrame r.own f (publicationAtFrame r.own f z).1).1.cont.recalls := by
  have state := afterAcceptance_eq r.own (impliedHeader levels s r).2 f (framed s levels r)
  have recalls : (afterAcceptance r.own (impliedHeader levels s r).2 f (framed s levels r)).cont.recalls =
      (afterSession r.own f (framed s levels r)).cont.recalls := by
    unfold afterAcceptance afterRoster
    rw [acceptanceAtFrame_recalls, rosterAtFrame_recalls]
  have cont : t.cont.recalls = (acted s levels r f).cont.recalls := congrArg ContinuityUnit.recalls h.cont
  have session : t.session = (afterSession r.own f (framed s levels r)).session :=
    h.session.trans (afterBlocks_session _ _ _ _)
  have epoch := fun u => congrArg (fun u : State => u.cont.recalls) (epochAtFrame_eq r.own f u)
  unfold acted afterBlocks at cont
  refine ⟨_, rfl, ?_, ?_, recalls, ?_, session, h.pubs, h.epoch, cont.trans (epoch _)⟩
  · rw [state]
  · rw [state]
  · rw [state]

/-- A foreign frame that bears the own number (R47). -/
theorem afterSession_of_duplicate {s : State} {levels : List LineLevel} {r : Reception} {f : Frame}
    (duplicate : f.source = ownNumber s) : ∃ y : State, y.pubs = s.pubs ∧ y.session = s.session ∧ y.cont = s.cont ∧
      y.epoch = s.epoch ∧ y.roster = s.roster ∧
      sessionAtFrame false f (accessAtFrame false f (framed s levels r)).1 = foreignOwnNumber f y ∧
      afterSession false f (framed s levels r) = (foreignOwnNumber f y).1 := by
  have state := accessAtFrame_foreign_eq f (framed s levels r)
  have acts : sessionAtFrame false f (accessAtFrame false f (framed s levels r)).1 =
      foreignOwnNumber f (accessAtFrame false f (framed s levels r)).1 := by
    unfold sessionAtFrame
    rw [if_neg Bool.false_ne_true, if_pos]
    rw [state, framed_eq]
    exact duplicate
  refine ⟨(accessAtFrame false f (framed s levels r)).1, ?_, ?_, ?_, ?_, ?_, acts, congrArg Prod.fst acts⟩ <;>
    rw [state, framed_eq] <;> rfl

theorem rosterAtFrame_of_duplicate {f : Frame} {s : State} (duplicate : f.source = ownNumber s) :
    rosterAtFrame false f s = (s, []) := by
  unfold rosterAtFrame
  rw [if_neg Bool.false_ne_true, if_pos duplicate]

/-- A station that has been refused has nothing left that the blocks behind could act on (R51). -/
theorem refused_blocks {z : State} {f : Frame} (duplicate : f.source = ownNumber z) (state : z.session.state = .refused)
    (free : ∀ p : RecallPos, (z.cont.recalls[p]).state = .free) (idle : z.epoch.request = .none) :
    (epochAtFrame false f (continuityAtFrame false f (publicationAtFrame false f z).1).1).1.pubs = z.pubs ∧
    (epochAtFrame false f (continuityAtFrame false f (publicationAtFrame false f z).1).1).1.epoch.request = .none ∧
    (epochAtFrame false f (continuityAtFrame false f (publicationAtFrame false f z).1).1).1.epoch.latched = z.epoch.latched ∧
    (continuityAtFrame false f (publicationAtFrame false f z).1).1.cont.recalls = z.cont.recalls := by
  have published : (publicationAtFrame false f z).1 = z := by
    cases body : f.body with
    | update first again topic seq payload =>
      rw [publicationAtFrame_of_update z body]
      unfold ownershipConflict
      split
      · rfl
      · rw [duplicate, if_neg (lt_irrefl _), if_neg (lt_irrefl _)]
    | recallFor topic =>
      rw [publicationAtFrame_of_recall z body]
      exact answerPeer_of_mute (.inl (by rw [state]; exact nofun))
    | epoch e => simp only [publicationAtFrame, body] <;> rfl
    | presence => simp only [publicationAtFrame, body] <;> rfl
    | claim => simp only [publicationAtFrame, body] <;> rfl
  have unrecalled : ∀ topic, recallAt z topic = none := fun topic =>
    recallAt_eq_none fun q busy => absurd (free q) busy
  have continued : (continuityAtFrame false f z).1 = z := by
    cases body : f.body with
    | update first again topic seq payload =>
      rw [continuityAtFrame_of_update z body, answerRecall_of_none (unrecalled _)]
    | recallFor topic =>
      rw [continuityAtFrame_of_recall z body]
      exact suppressRecall_of_none (unrecalled _)
    | epoch e => simp only [continuityAtFrame, body]
    | presence => simp only [continuityAtFrame, body]
    | claim => simp only [continuityAtFrame, body]
  rw [published, continued]
  by_cases epoch : ∃ e, f.body = .epoch e
  · obtain ⟨e, body⟩ := epoch
    obtain ⟨request, latched, pubs, -⟩ := (epochAtFrame_request (z := z) body).2 idle
    exact ⟨pubs, request, latched, rfl⟩
  · rw [epochAtFrame_of_other z fun e body => epoch ⟨e, body⟩]
    exact ⟨rfl, idle, rfl, rfl⟩

/-! ## Refusal and defence (R45, R47, R48, R51) -/

theorem refuse_parts (reason : RefusalReason) (s : State) :
    (refuse reason s).1.session = { s.session with state := .refused, listenWindow := none, presenceTimer := none } ∧
    (refuse reason s).1.pubs = (stopSending s).pubs ∧
    (refuse reason s).1.cont.recalls = Vector.replicate 8 RecallEntry.initial ∧
    (refuse reason s).1.epoch = s.epoch.settled := ⟨rfl, rfl, rfl, rfl⟩

/-- A Publication Unit that sends no more: no item, and no entry with marks, timer or hold-off. -/
theorem stopSending_cleared (s : State) : (stopSending s).pubs.items = [] ∧
    ∀ i : PubIndex, (stopSending s).pubs.table[i] = { s.pubs.table[i] with
      item := none, writtenSinceLatch := false, rePend := false, periodicTimer := none, holdOff := none } := by
  refine ⟨by unfold stopSending; rw [setPubs_pubs], fun i => ?_⟩
  unfold stopSending
  rw [setPubs_pubs, tabMap_getElem]
  generalize s.pubs.table[i] = e
  rfl

theorem refuse_notices (reason : RefusalReason) (s : State) : .sessionRefused reason ∈ (refuse reason s).2 ∧
    (∀ p : RecallPos, (s.cont.recalls[p]).state ≠ .free → (s.cont.recalls[p]).origin = .host →
      .recallDone (s.cont.recalls[p]).topic .cancelled ∈ (refuse reason s).2) ∧
    (s.epoch.request ≠ .none → .epochDone .cancelled ∈ (refuse reason s).2) := by
  have posted : (refuse reason s).2 = ([.sessionRefused reason] ++ (cancelRecalls s).2) ++ (cancelEpoch s).2 := rfl
  rw [posted]
  refine ⟨List.mem_append_left _ (List.mem_append_left _ List.mem_cons_self), fun p busy host => ?_, fun requested => ?_⟩
  · refine List.mem_append_left _ (List.mem_append_right _ (List.mem_filterMap.mpr ⟨p, List.mem_finRange p, ?_⟩))
    exact if_pos ⟨busy, host⟩
  · refine List.mem_append_right _ ?_
    unfold cancelEpoch
    dsimp only
    rw [if_neg requested]
    exact List.mem_cons_self

theorem session_group (own headerSeen : Bool) (f : Frame) (s : State) :
    (sessionAtFrame own f (accessAtFrame own f s).1).2 ∈ frameNotices own headerSeen f s :=
  List.mem_cons_of_mem _ List.mem_cons_self

/-- What stands after a foreign frame that makes the Session Controller refuse (R51). -/
theorem CleanEnd.refused {s t : State} {levels : List LineLevel} {r : Reception} {f : Frame} {reason : RefusalReason} {y : State}
    (h : CleanEnd s t levels r f) (foreign : r.own = false) (duplicate : f.source = ownNumber s) (pubs : y.pubs = s.pubs)
    (session : y.session = s.session) (cont : y.cont = s.cont) (epoch : y.epoch = s.epoch)
    (acts : sessionAtFrame false f (accessAtFrame false f (framed s levels r)).1 = refuse reason y) :
    Refused s t reason := by
  obtain ⟨z, -, pubs', session', recalls', epoch', tSession, tPubs, tEpoch, tRecalls⟩ := h.behindSession
  rw [foreign] at pubs' session' recalls' epoch' tSession tPubs tEpoch tRecalls
  have posted := h.posted
  rw [foreign] at posted
  have group := session_group false (impliedHeader levels s r).2 f (framed s levels r)
  rw [acts] at group
  obtain ⟨refused, cancelled, settled⟩ := refuse_notices reason y
  obtain ⟨state, stopped, freed, idle⟩ := refuse_parts reason y
  obtain ⟨empty, cleared⟩ := stopSending_cleared y
  unfold afterSession at pubs' session' recalls' epoch' tSession
  rw [acts] at pubs' session' recalls' epoch' tSession
  have same : f.source = ownNumber z := by
    rw [duplicate]
    unfold ownNumber
    rw [session', state, session]
  have free : ∀ p : RecallPos, z.cont.recalls[p] = RecallEntry.initial := fun p => by
    rw [recalls', freed]
    exact Vector.getElem_replicate _
  obtain ⟨keepsPubs, request, latched, keepsRecalls⟩ := refused_blocks same (by rw [session', state])
    (fun p => by rw [free p]; rfl) (by rw [epoch', idle]; rfl)
  rw [keepsPubs, pubs', stopped] at tPubs
  rw [keepsRecalls] at tRecalls
  have latched' := latched.trans (by rw [epoch', idle]; rfl : z.epoch.latched = none)
  refine ⟨?_, (h.settled_of_foreign foreign).1 (permission_of_refused ?_), by rw [tPubs, empty], fun i => ?_,
    fun p => ?_, by rw [tEpoch]; exact request, by rw [tEpoch]; exact latched', posted.notified group refused,
    fun p busy host => ?_, fun requested => posted.notified group (settled (epoch ▸ requested))⟩
  · rw [tSession, state, session]
  · rw [tSession, state]
  · rw [tPubs, cleared i, pubs]
  · rw [tRecalls]
    exact free p
  · rw [← cont] at busy host ⊢
    exact posted.notified group (cancelled p busy host)

/-- What stands after a foreign frame against which the station defends its number (R47, R48). -/
theorem CleanEnd.defended {s t : State} {levels : List LineLevel} {r : Reception} {f : Frame} {y : State} {ns : List Notice}
    (h : CleanEnd s t levels r f) (foreign : r.own = false) (pubs : y.pubs = s.pubs) (session : y.session = s.session)
    (acts : sessionAtFrame false f (accessAtFrame false f (framed s levels r)).1 = (defend y, ns)) :
    t.session = s.session ∧ Defended s t ∧ (∀ n ∈ ns, notified s t n) ∧
      ((∀ n ∈ ns, ¬ ∃ k, n = .duplicateSuspected k) → unnotified s t fun n => ∃ k, n = .duplicateSuspected k) := by
  obtain ⟨z, -, pubs', -, -, -, tSession, tPubs, -⟩ := h.behindSession
  rw [foreign] at pubs' tSession tPubs
  have posted := h.posted
  rw [foreign] at posted
  have group := session_group false (impliedHeader levels s r).2 f (framed s levels r)
  unfold afterSession at pubs' tSession
  rw [acts] at pubs' tSession group
  refine ⟨?_, ?_, fun n listed => posted.notified group listed, fun silent => posted.unnotified ?_⟩
  · rw [tSession, defend_eq, setPubs_session, session]
  · have first : Defended s (defend y) := by
      have defends := defend_defended y
      rw [defended_iff] at defends ⊢
      rwa [pubs] at defends
    have behind : PresenceKept (defend y) z := .of_items (by rw [pubs'])
    refine first.kept ((((behind.trans (.publicationAtFrame false f z)).trans (.continuityAtFrame false f _)).trans
      (.epochAtFrame false f _)).trans (.of_items (by rw [tPubs])))
  · have sort : ∀ n : Notice, (∃ k, n = .duplicateSuspected k) → n.sort ∈ [(0x04 : Byte)] := by
      rintro n ⟨k, rfl⟩
      exact List.mem_singleton.mpr rfl
    refine frameNotices_lack ((accessAtFrame_among _ _ _).lacks sort (by decide)) ?_
      ((rosterAtFrame_among _ _ _).lacks sort (by decide)) ((acceptanceAtFrame_among _ _ _ _).lacks sort (by decide))
      ((publicationAtFrame_among _ _ _).lacks sort (by decide)) ((continuityAtFrame_among _ _ _).lacks sort (by decide))
      ((epochAtFrame_among _ _ _).lacks sort (by decide))
    rw [acts]
    exact silent

/-- A foreign frame that bears the own number does not touch the roster (R56). -/
theorem CleanEnd.roster_of_duplicate {s t : State} {levels : List LineLevel} {r : Reception} {f : Frame}
    (h : CleanEnd s t levels r f) (foreign : r.own = false) (duplicate : f.source = ownNumber s) : t.roster = s.roster := by
  have session := (afterSession_changed false f (framed s levels r)).roster
  have roster : t.roster = (afterRoster r.own f (framed s levels r)).roster := h.roster.trans (afterBlocks_roster _ _ _ _)
  have record : (afterSession false f (framed s levels r)).session.record = s.session.record :=
    (refuse_record_keptByBlocks _).sessionAtFrame false f _
      ((refuse_record_keptByBlocks _).accessAtFrame false f _ (by rw [framed_eq]))
  have same : f.source = ownNumber (afterSession false f (framed s levels r)) := by
    rw [duplicate]
    unfold ownNumber
    rw [record]
  rw [foreign] at roster
  unfold afterRoster at roster
  rw [rosterAtFrame_of_duplicate same] at roster
  rw [roster, session, framed_eq]

/-- How a station takes a foreign frame with its own number, by its state (R44, R45, R47, R52). -/
theorem foreignOwnNumber_of_waiting {f : Frame} {s : State}
    (waiting : s.session.state = .listening ∨ s.session.state = .claiming) :
    foreignOwnNumber f s = refuse .stationTaken s := by
  unfold foreignOwnNumber
  obtain state | state := waiting <;> rw [state]

theorem foreignOwnNumber_of_refused {f : Frame} {s : State} (state : s.session.state = .refused) :
    foreignOwnNumber f s = (s, []) := by
  unfold foreignOwnNumber
  rw [state]

theorem foreignOwnNumber_of_member {f : Frame} {s : State} (state : s.session.state = .member) :
    foreignOwnNumber f s = answerDuplicate f s := by
  unfold foreignOwnNumber
  rw [state]

theorem unitTag_of_record {s : State} {rec : Record} (recorded : s.session.record = some rec) :
    recordField s (fun r => r.unitTag.toNat) = rec.unitTag.toNat := by
  unfold recordField
  rw [recorded]

theorem answerDuplicate_of_presence {f : Frame} {s : State} {rec : Record} {caution defence noEpoch : Bool} {tag : UnitTag}
    {last : SeqNo} (recorded : s.session.record = some rec) (body : f.body = .presence caution defence noEpoch tag last) :
    answerDuplicate f s = if tag.toNat < rec.unitTag.toNat then refuse .duplicateLost s
      else if tag.toNat = rec.unitTag.toNat then (defend s, [.duplicateSuspected .presence]) else (defend s, []) := by
  simp only [answerDuplicate, body, unitTag_of_record recorded]

theorem answerDuplicate_of_other {f : Frame} {s : State} (claim : ∀ tag, f.body ≠ .claim tag)
    (presence : ∀ caution defence noEpoch tag last, f.body ≠ .presence caution defence noEpoch tag last) :
    answerDuplicate f s = (defend s, [.duplicateSuspected f.body.kind]) := by
  unfold answerDuplicate
  cases body : f.body with
  | claim tag => exact absurd body (claim tag)
  | presence caution defence noEpoch tag last => exact absurd body (presence caution defence noEpoch tag last)
  | update first again topic seq payload => rfl
  | recallFor topic => rfl
  | epoch e => rfl

/-- Settles O24: each timer runs its one branch, and a foreign frame with the own number is answered by the session state it
meets, which the blocks behind leave as it is. -/
theorem sessionTimersPlaceTheirItems : Obligations.SessionTimersPlaceTheirItems := by
  refine ⟨fun s running => ⟨fun listening timed => ?_, fun r recorded timed => ?_⟩,
    fun s rec levels r f foreign recorded duplicate => ?_⟩
  · have next := exec_listenWindowExpiry_of_running running listening timed
    obtain ⟨b, eq, settled⟩ := settleBooking_with (s := s) (u := startClaiming s) rfl rfl rfl
    rw [eq] at next
    exact ⟨_, next, rfl, settled⟩
  · have next := exec_presenceTimerExpiry_of_running running timed
    have restarts := restartPresence_of_record recorded
    have waiting := presenceExpiry_of_waiting (s := s)
    have absent := presenceExpiry_of_none (s := s)
    rw [restarts] at waiting absent
    by_cases listed : ∃ it ∈ s.pubs.items, it.isPresence = true
    · rw [waiting listed] at next
      obtain ⟨b, eq, settled⟩ := settleBooking_with (s := s)
        (u := s.setSession { s.session with presenceTimer := some (r.presenceInterval * 10 * 1000) }) rfl rfl rfl
      rw [eq] at next
      refine ⟨_, next, rfl, settled, fun _ => rfl, fun none => ?_⟩
      obtain ⟨it, mem, presence⟩ := listed
      exact absurd (presence.symm.trans (none it mem)) nofun
    · have none : ∀ it ∈ s.pubs.items, it.isPresence = false := fun it mem =>
        Bool.eq_false_iff.mpr fun presence => listed ⟨it, mem, presence⟩
      rw [absent none] at next
      obtain ⟨b, eq, settled⟩ := settleBooking_with (s := s)
        (u := placeItem (s.setSession { s.session with presenceTimer := some (r.presenceInterval * 10 * 1000) })
          (.presence false) 7) rfl rfl rfl
      rw [eq] at next
      exact ⟨_, next, rfl, settled, fun found => absurd found listed, fun _ => rfl⟩
  · obtain ⟨t, next, ended⟩ := foreign.next
    have peer := foreign.isForeign
    have own : f.source = ownNumber s := duplicate.trans (ownNumber_of_record recorded).symm
    obtain ⟨y, pubs, session, cont, epoch, -, acts, after⟩ := afterSession_of_duplicate (levels := levels) (r := r) own
    refine ⟨t, next, ended.roster_of_duplicate peer own, ended.settled_of_foreign peer, fun waiting => ?_, fun refused => ?_,
      fun member => ?_⟩
    · rw [foreignOwnNumber_of_waiting (session ▸ waiting)] at acts
      exact ended.refused peer own pubs session cont epoch acts
    · obtain ⟨z, -, -, -, -, -, tSession, -⟩ := ended.behindSession
      rw [peer, after, foreignOwnNumber_of_refused (session ▸ refused)] at tSession
      exact tSession.trans session
    · rw [foreignOwnNumber_of_member (session ▸ member)] at acts
      refine ⟨fun tag body => ?_, fun caution defence noEpoch tag last body => ?_, fun claim presence => ?_⟩
      · have answers : answerDuplicate f y = (defend y, []) := by simp only [answerDuplicate, body]
        obtain ⟨kept, defended, -, silent⟩ := ended.defended peer pubs session (acts.trans answers)
        exact ⟨kept, defended, silent nofun⟩
      · have answers := acts.trans (answerDuplicate_of_presence (session ▸ recorded) body)
        refine ⟨fun lower => ?_, fun higher => ?_, fun same => ?_, fun higher => ?_⟩
        · rw [if_pos lower] at answers
          exact ended.refused peer own pubs session cont epoch answers
        · rw [if_neg (not_lt.mpr higher)] at answers
          by_cases same : tag.toNat = rec.unitTag.toNat
          · rw [if_pos same] at answers
            obtain ⟨kept, defended, -⟩ := ended.defended peer pubs session answers
            exact ⟨kept, defended⟩
          · rw [if_neg same] at answers
            obtain ⟨kept, defended, -⟩ := ended.defended peer pubs session answers
            exact ⟨kept, defended⟩
        · subst same
          rw [if_neg (lt_irrefl _), if_pos rfl] at answers
          obtain ⟨-, -, posted, -⟩ := ended.defended peer pubs session answers
          exact posted _ List.mem_cons_self
        · rw [if_neg (Nat.lt_asymm higher), if_neg (Nat.ne_of_gt higher)] at answers
          obtain ⟨-, -, -, silent⟩ := ended.defended peer pubs session answers
          exact silent nofun
      · obtain ⟨kept, defended, posted, -⟩ :=
          ended.defended peer pubs session (acts.trans (answerDuplicate_of_other claim presence))
        exact ⟨kept, defended, posted _ List.mem_cons_self⟩

end Sys2Proof.Machine
end

section
/-! The end of an own frame that is CLEAN: its echo came back as it was sent (R16, R30). -/

namespace Sys2Proof.Machine

/-! ## The echo (R16) -/

/-- The echo of the frame `f` of the item in flight `x` ends CLEAN with the levels given, as it was sent (R16, R30). -/
structure EchoEnd (s : State) (levels : List LineLevel) (r : Reception) (x : Flight) (f : Frame) : Prop where
  running : s.held = false
  receiving : s.line.receive = .inFrame r
  own : r.own = true
  driving : s.line.send.isJamming = false
  flying : s.access.inFlight = some x
  quiet : echoMismatch s (8 + r.heard) levels = none
  idle : (r.rx.feed levels).phase = .endedIdle
  stopped : (r.rx.feed levels).missingStop = false
  chars : (r.rx.feed levels).chars = withCheck x.covered
  judged : judge (r.rx.feed levels) = .clean f

theorem OwnEnd.echo {s : State} {levels : List LineLevel} {r : Reception} {f : Frame} (h : OwnEnd s levels r f) :
    ∃ x, EchoEnd s levels r x f := by
  obtain ⟨running, receiving, own, -, driving, ⟨x, flying, covered⟩, quiet, idle, stopped, chars, judged⟩ := h
  exact ⟨x, running, receiving, own, driving, flying, quiet, idle, stopped, covered ▸ chars, judged⟩

/-- What is driven shows no difference to itself with something behind. -/
theorem firstDifference_of_longer (ds rest : List LineLevel) : firstDifference ds (ds ++ rest) = none := by
  induction ds with
  | nil => rfl
  | cons d ds ih => rw [List.cons_append, firstDifference, if_pos rfl, ih]; rfl

/-- The reception of a frame whose start mark has just been accepted. -/
def ownReception : Reception := { own := true, headerSeen := false, heard := 0, rx := Receiver.start }

/-- An own frame that has just been opened, come back whole (R2, R4, R16). -/
theorem OwnEcho.echo {s : State} {x : Flight} {f : Frame} (h : OwnEcho s x f) :
    EchoEnd s (wholeFrame (withCheck x.covered)) ownReception x f := by
  obtain ⟨running, opened, driving, flying, covered, sendable, -, -⟩ := h
  obtain ⟨idle, fed⟩ := start_feed_wholeFrame (withCheck x.covered)
  have judged := judge_sent sendable
  rw [← covered] at judged
  have ended : ownReception.rx.feed (wholeFrame (withCheck x.covered)) =
    { betweenCharacters (withCheck x.covered) idle with phase := .endedIdle } := fed
  refine ⟨running, opened, rfl, driving, flying, ?_, by rw [ended], by rw [ended]; rfl, by rw [ended]; rfl, judged⟩
  have driven : (frameLevels (withCheck x.covered)).drop 8 = charactersLevels (withCheck x.covered) := rfl
  unfold echoMismatch
  rw [if_pos ((comparing_iff s).mpr ⟨by rw [flying]; exact nofun, driving⟩), sentBytes_of_flight flying]
  show Option.map _ (firstDifference ((frameLevels (withCheck x.covered)).drop 8) (_ ++ _)) = none
  rw [driven, firstDifference_of_longer]
  rfl

namespace EchoEnd

variable {s : State} {levels : List LineLevel} {r : Reception} {x : Flight} {f : Frame}

theorem ended (h : EchoEnd s levels r x f) : (r.rx.feed levels).ended = true := by
  unfold Receiver.ended
  rw [h.idle]
  rfl

theorem endsAsSent (h : EchoEnd s levels r x f) : endsAsSent s (r.rx.feed levels) = true := by
  unfold Machine.endsAsSent
  rw [sentBytes_of_flight h.flying, h.idle, h.stopped, h.chars, beq_self_eq_true, beq_self_eq_true]
  rfl

theorem unmatched_none (h : EchoEnd s levels r x f) : endMismatch s r levels = none := by
  have quiet := h.quiet
  rw [← frameMismatch_of_own s levels h.own] at quiet
  simp only [endMismatch, quiet, h.endsAsSent, Bool.not_true, Bool.and_false, Bool.false_eq_true, if_false]

theorem outcome (h : EchoEnd s levels r x f) : outcomeOf s r (r.rx.feed levels) = .clean f := by
  have compares : comparing s = true := (comparing_iff s).mpr ⟨by rw [h.flying]; exact nofun, h.driving⟩
  unfold outcomeOf
  rw [h.judged, compares, Bool.not_true, Bool.and_false]
  rfl

theorem exec (h : EchoEnd s levels r x f) :
    exec (.frameEnd levels) s = .next (endFrame levels r (r.rx.feed levels) s) := by
  rw [exec_frameEnd_of_running h.running levels, frameEnd_of_ended h.receiving h.ended, h.unmatched_none, collideAt_none]

end EchoEnd

/-! ## The end of the attempt (R30) -/

/-- The state in which the owner of the item is told: the item has left the list and the flight, the base stands, the driver is
off (R21, R30). -/
def echoLanded (x : Flight) (f : Frame) (s : State) : State :=
  ((removeItem s x.kind).setAccess { s.access with
    bases := upd s.access.bases f.cls fun _ => f.source, inFlight := none }).setLine { s.line with send := .off }

theorem accessAtFrame_of_echo {s : State} {x : Flight} (flying : s.access.inFlight = some x) (f : Frame) :
    accessAtFrame true f s = lowerScore (ownerClean x (echoLanded x f s)) 2 := by
  have clean : accessAtFrame true f s = lowerScore (cleanEnd (setBase s f.cls f.source)) 2 := rfl
  rw [clean, cleanEnd_of_flight (s := setBase s f.cls f.source) flying]
  rfl

/-- What the owner leaves, with the score lowered. -/
theorem lowerScore_landed (x : Flight) (f : Frame) (s : State) :
    (lowerScore (ownerClean x (echoLanded x f s)) 2).1 = { s with
      pubs := (ownerClean x (echoLanded x f s)).pubs, cont := (ownerClean x (echoLanded x f s)).cont,
      line := { s.line with send := .off },
      access := { s.access with
        bases := upd s.access.bases f.cls fun _ => f.source, inFlight := none, score := s.access.score - 2,
        standing := nextStanding s.access.standing (s.access.score - 2) } } := by
  have owner := ownerClean_eq x (echoLanded x f s)
  generalize ownerClean x (echoLanded x f s) = u at owner ⊢
  obtain ⟨cont, pubs, rfl⟩ : ∃ cont pubs, u = ((echoLanded x f s).setCont cont).setPubs pubs := ⟨_, _, owner⟩
  rfl

section Landed

variable {s : State} {levels : List LineLevel} {r : Reception} {x : Flight} {f : Frame}

/-- What the Access Controller and the owner leave of the parts that the owners read. -/
theorem accessAtFrame_echo_eq (flying : s.access.inFlight = some x) :
    ∃ L : State, L.pubs = (removeItem s x.kind).pubs ∧ L.session = s.session ∧ L.cont = s.cont ∧
      (accessAtFrame true f (framed s levels r)).1 = { framed s levels r with
        pubs := (ownerClean x L).pubs, cont := (ownerClean x L).cont,
        line := { closedLine s (r.rx.feed levels) with send := .off },
        access := { s.access with
          bases := upd s.access.bases f.cls fun _ => f.source, inFlight := none, score := s.access.score - 2,
          standing := nextStanding s.access.standing (s.access.score - 2) } } := by
  have parts := framed_eq s levels r
  refine ⟨echoLanded x f (framed s levels r), ?_, ?_, ?_, ?_⟩
  · rw [parts]
    rfl
  · rw [parts]
    rfl
  · rw [parts]
    rfl
  · rw [accessAtFrame_of_echo (by rw [parts]; exact flying) f, lowerScore_landed]
    generalize ownerClean x (echoLanded x f (framed s levels r)) = u
    rw [parts]

/-! ## The blocks behind the Access Controller -/

theorem ownCleanEnd_state (f : Frame) {s : State} (staying : s.session.state ≠ .leaving) :
    (ownCleanEnd f s).1.session.state ≠ .leaving := by
  unfold ownCleanEnd
  split
  · unfold enterMember
    dsimp only
    rw [announce_eq]
    exact nofun
  · exact staying
  · exact staying

theorem EchoEnd.next (h : EchoEnd s levels r x f) (staying : s.session.state ≠ .leaving) :
    ∃ t, Machine.exec (.frameEnd levels) s = .next t ∧ CleanEnd s t levels r f := by
  refine ⟨_, h.exec, endFrame_of_clean h.outcome fun own => ?_⟩
  have session : (acted s levels r f).session = (afterSession r.own f (framed s levels r)).session :=
    afterBlocks_session _ _ _ _
  rw [session, own]
  refine ownCleanEnd_state f ?_
  rw [accessAtFrame_session, framed_eq]
  exact staying

/-- The Publication Unit has no part in the end of an own frame. -/
theorem publicationAtFrame_own (f : Frame) (s : State) : publicationAtFrame true f s = (s, []) := rfl

/-- The Epoch Unit sets its own part, at the end of an own EPOCH (R159, R160). -/
theorem epochAtFrame_own {f : Frame} {e : SeqNo} (s : State) (body : f.body = .epoch e) :
    (epochAtFrame true f s).1.pubs = s.pubs ∧ (epochAtFrame true f s).1.epoch.request = .none ∧
      (epochAtFrame true f s).1.epoch.latched = none ∧ (epochAtFrame true f s).1.epoch.lastSeen = some e ∧
      .epochDone (.sent e f.source) ∈ (epochAtFrame true f s).2 := by
  obtain ⟨pubs, -, -⟩ := capture_keeps s e f.source
  have seen : (capture s e f.source).1.epoch.lastSeen = some e := by
    by_cases same : s.epoch.lastSeen = some e
    · rw [capture_of_same f.source same]
      exact same
    · rw [capture_of_other f.source same]
      rfl
  rw [epochAtFrame_of_epoch s body]
  exact ⟨pubs, rfl, rfl, seen, List.mem_append_right _ List.mem_cons_self⟩

theorem epochAtFrame_own_pubs (f : Frame) (s : State) : (epochAtFrame true f s).1.pubs = s.pubs := by
  by_cases epoch : ∃ e, f.body = .epoch e
  · obtain ⟨e, body⟩ := epoch
    exact (epochAtFrame_own s body).1
  · rw [epochAtFrame_of_other s fun e body => epoch ⟨e, body⟩]

/-- An own frame that answers no recall. -/
theorem continuityAtFrame_own_still {f : Frame} {s : State}
    (unanswered : ∀ first again topic seq payload, f.body = .update first again topic seq payload → recallAt s topic = none) :
    continuityAtFrame true f s = (s, []) := by
  cases body : f.body with
  | update first again topic seq payload =>
    rw [continuityAtFrame_of_update s body, answerRecall_of_none (unanswered _ _ _ _ _ body)]
  | recallFor topic => simp only [continuityAtFrame, body, if_true]
  | epoch e => simp only [continuityAtFrame, body]
  | presence => simp only [continuityAtFrame, body]
  | claim => simp only [continuityAtFrame, body]

/-- What the blocks behind the Session Controller leave at the end of an own frame. -/
theorem CleanEnd.behindOwn {t : State} (h : CleanEnd s t levels r f) (own : r.own = true) :
    ∃ z : State, z = afterAcceptance true (impliedHeader levels s r).2 f (framed s levels r) ∧
      z.pubs = (afterSession true f (framed s levels r)).pubs ∧
      z.cont.recalls = (afterSession true f (framed s levels r)).cont.recalls ∧
      z.epoch = (afterSession true f (framed s levels r)).epoch ∧
      t.session = (afterSession true f (framed s levels r)).session ∧
      t.pubs = (continuityAtFrame true f z).1.pubs ∧ t.cont.recalls = (continuityAtFrame true f z).1.cont.recalls ∧
      t.cont.tracker = z.cont.tracker ∧ t.epoch = (epochAtFrame true f (continuityAtFrame true f z).1).1.epoch := by
  obtain ⟨z, eq, pubs, -, recalls, epoch, tSession, tPubs, tEpoch, tRecalls⟩ := h.behindSession
  have tracker : t.cont.tracker = (acted s levels r f).cont.tracker := congrArg ContinuityUnit.tracker h.cont
  have same := tracker.trans (afterBlocks_tracker _ _ _ _)
  rw [own] at eq pubs recalls epoch tSession tPubs tEpoch tRecalls same
  rw [publicationAtFrame_own] at tPubs tEpoch tRecalls
  rw [epochAtFrame_own_pubs] at tPubs
  exact ⟨z, eq, pubs, recalls, epoch, tSession, tPubs, tRecalls, eq ▸ same, tEpoch⟩

/-- The Roster and the Acceptance Unit leave the tracker where the own frame is no UPDATE. -/
theorem afterAcceptance_own_cont {own headerSeen : Bool} {f : Frame} (s : State) (isOwn : own = true)
    (other : ∀ first again topic seq payload, f.body ≠ .update first again topic seq payload) :
    (afterAcceptance own headerSeen f s).cont = (afterSession own f s).cont := by
  subst isOwn
  exact acceptanceAtFrame_tracker _ other

/-- The Access Controller at the end of an own frame (R21, R30, R34). -/
theorem CleanEnd.echo_access {t : State} (h : CleanEnd s t levels r f) (own : r.own = true)
    (flying : s.access.inFlight = some x) : SettledBooking (landed s) t ∧ ∃ b, t.access = { s.access with
      bases := upd s.access.bases f.cls fun _ => f.source, inFlight := none, score := s.access.score - 2,
      standing := nextStanding s.access.standing (s.access.score - 2), booking := b } := by
  obtain ⟨L, -, -, -, access⟩ := accessAtFrame_echo_eq (levels := levels) (r := r) (f := f) flying
  refine ⟨h.settled (landed s) ?_, ?_⟩
  · obtain same | ⟨refused, -⟩ := acted_access s levels r f
    · rw [own, access] at same
      rw [same]
      exact .inl ⟨rfl, rfl, rfl⟩
    · exact .inr refused
  · obtain ⟨b, same⟩ := h.access_eq
    rw [own, access] at same
    exact ⟨b, same⟩

/-- The line at the end of an own frame (R4, R30). -/
theorem CleanEnd.echo_line {t : State} (h : CleanEnd s t levels r f) (own : r.own = true)
    (flying : s.access.inFlight = some x) : t.line = { closedLine s (r.rx.feed levels) with send := .off } := by
  obtain ⟨L, -, -, -, access⟩ := accessAtFrame_echo_eq (levels := levels) (r := r) (f := f) flying
  rw [h.line]
  unfold acted
  rw [afterBlocks_line, own, access]

/-- What stands after an own frame in MEMBER: `L` is the state in which the owner of the item is told, and `z` the one in which
the Continuity and the Epoch Unit act. -/
structure MemberEnd (s t L z : State) (x : Flight) (f : Frame) : Prop where
  pubs : L.pubs = (removeItem s x.kind).pubs
  session : L.session = s.session
  cont : L.cont = s.cont
  told : z.pubs = (ownerClean x L).pubs
  recalls : z.cont.recalls = (ownerClean x L).cont.recalls
  epoch : z.epoch = s.epoch
  endPubs : t.pubs = (continuityAtFrame true f z).1.pubs
  endRecalls : t.cont.recalls = (continuityAtFrame true f z).1.cont.recalls
  endEpoch : t.epoch = (epochAtFrame true f (continuityAtFrame true f z).1).1.epoch
  tracker : (∀ first again topic seq payload, f.body ≠ .update first again topic seq payload) →
    t.cont.tracker = (ownerClean x L).cont.tracker

/-- An own frame in MEMBER: the owner is told, and the presence timer restarts (R30, R49). -/
theorem CleanEnd.echo_member {t : State} {rec : Record} (h : CleanEnd s t levels r f) (own : r.own = true)
    (flying : s.access.inFlight = some x) (member : s.session.state = .member) (recorded : s.session.record = some rec) :
    t.session = { s.session with presenceTimer := some (rec.presenceInterval * 10 * 1000) } ∧
    ∃ L z : State, MemberEnd s t L z x f := by
  obtain ⟨L, pubs, session, cont, access⟩ := accessAtFrame_echo_eq (levels := levels) (r := r) (f := f) flying
  obtain ⟨z, eq, zPubs, zRecalls, zEpoch, tSession, tPubs, tRecalls, tTracker, tEpoch⟩ := h.behindOwn own
  have restarts : afterSession true f (framed s levels r) = restartPresence (accessAtFrame true f (framed s levels r)).1 := by
    have state : (accessAtFrame true f (framed s levels r)).1.session.state = .member := by
      rw [access, framed_eq]
      exact member
    unfold afterSession sessionAtFrame ownCleanEnd
    rw [if_pos rfl, state]
  have parts := framed_eq s levels r
  have recorded' : (accessAtFrame true f (framed s levels r)).1.session.record = some rec := by
    rw [access, parts]
    exact recorded
  rw [restartPresence_of_record recorded', access] at restarts
  rw [restarts] at zPubs zRecalls zEpoch tSession
  refine ⟨?_, L, z, pubs, session, cont, zPubs, zRecalls, ?_, tPubs, tRecalls, tEpoch, fun other => ?_⟩
  · rw [tSession, parts]
    rfl
  · rw [zEpoch, parts]
    rfl
  · rw [tTracker, eq, afterAcceptance_own_cont _ rfl other, restarts]
    rfl

end Landed

end Sys2Proof.Machine
end

section
/-! An own frame that is CLEAN: the owner of its item, the announce of a new MEMBER, and the clean CLAIM (R46, R124, R127, R148). -/

namespace Sys2Proof.Machine

/-! ## The clean end of an UPDATE (R127) -/

section Sent

variable {s : State} {i : PubIndex} {repeated : Bool}

theorem updateSent_of_withdrawing (withdrawing : (s.pubs.table[i]).state = .withdrawing) :
    updateSent s i repeated = s.updPub i fun _ => PubEntry.initial := by
  rw [updateSent_eq_if, if_pos withdrawing]

/-- The entry without its item and its marks, before the re-pend mark is examined. -/
def sentOnce (s : State) (i : PubIndex) (repeated : Bool) : State :=
  s.updPub i fun _ => { (s.pubs.table[i]).cleanEnd repeated with rePend := false }

theorem sentOnce_entry : (sentOnce s i repeated).pubs.table[i] =
    { (s.pubs.table[i]).cleanEnd repeated with rePend := false } := updPub_self s i _

theorem PubEntry.cleanEnd_rePend (e : PubEntry) (repeated : Bool) : (e.cleanEnd repeated).rePend = e.rePend := by
  cases repeated <;> rfl

theorem PubEntry.cleanEnd_item (e : PubEntry) (repeated : Bool) : (e.cleanEnd repeated).item = none := by
  cases repeated <;> rfl

theorem PubEntry.cleanEnd_flight (e : PubEntry) (repeated : Bool) :
    (e.cleanEnd repeated).inFlight = false ∧ (e.cleanEnd repeated).payload = e.payload := by
  cases repeated <;> exact ⟨rfl, rfl⟩

theorem updateSent_of_kept (kept : (s.pubs.table[i]).state ≠ .withdrawing) (member : s.session.state = .member) :
    updateSent s i repeated =
      if (s.pubs.table[i]).rePend = true then makePendingNew (sentOnce s i repeated) i else sentOnce s i repeated := by
  rw [updateSent_eq_if, if_neg kept]
  dsimp only
  rw [PubEntry.cleanEnd_rePend]
  exact if_congr (and_iff_left member) rfl rfl

theorem updateSent_of_unmarked (kept : (s.pubs.table[i]).state ≠ .withdrawing) (member : s.session.state = .member)
    (unmarked : (s.pubs.table[i]).rePend = false) : updateSent s i repeated = sentOnce s i repeated := by
  rw [updateSent_of_kept kept member, if_neg (by rw [unmarked]; exact nofun)]

theorem updateSent_others {j : PubIndex} (member : s.session.state = .member) (other : j ≠ i) :
    (updateSent s i repeated).pubs.table[j] = s.pubs.table[j] := by
  by_cases withdrawing : (s.pubs.table[i]).state = .withdrawing
  · rw [updateSent_of_withdrawing withdrawing]
    exact updPub_other s _ other
  · rw [updateSent_of_kept withdrawing member]
    split
    · exact (makePendingNew_other other).trans (updPub_other s _ other)
    · exact updPub_other s _ other

/-- The fields of an entry of which the last own frame has ended clean. -/
theorem updateSent_entry (kept : (s.pubs.table[i]).state ≠ .withdrawing) (member : s.session.state = .member) :
    (updateSent s i repeated).pubs.table[i] = { (s.pubs.table[i]).cleanEnd repeated with
      rePend := false, item := (updateSent s i repeated).pubs.table[i].item } := by
  rw [updateSent_of_kept kept member]
  split
  · refine (makePendingNew_entry (sentOnce s i repeated) i).trans ?_
    rw [sentOnce_entry]
  · rw [sentOnce_entry]

/-- Nothing is placed for an entry that is not to be sent again, or that is not ACTIVE. -/
theorem updateSent_items (member : s.session.state = .member)
    (once : (s.pubs.table[i]).rePend = false ∨ (s.pubs.table[i]).state ≠ .active) :
    (updateSent s i repeated).pubs.items = s.pubs.items := by
  by_cases withdrawing : (s.pubs.table[i]).state = .withdrawing
  · rw [updateSent_of_withdrawing withdrawing]
    rfl
  · rw [updateSent_of_kept withdrawing member]
    split
    · rename_i marked
      have inactive := once.resolve_left (by rw [marked]; exact nofun)
      have still : makePendingNew (sentOnce s i repeated) i = sentOnce s i repeated := if_neg fun ready => inactive <| by
        obtain ⟨active, -⟩ := ready
        rwa [sentOnce_entry, show ∀ e : PubEntry, ({ e with rePend := false } : PubEntry).state = e.state from fun _ => rfl,
          PubEntry.cleanEnd_state] at active
      rw [still]
      rfl
    · rfl

/-- An ACTIVE entry with a value that was written while its item was in flight is sent again. -/
theorem updateSent_of_marked (active : (s.pubs.table[i]).state = .active) (member : s.session.state = .member)
    (marked : (s.pubs.table[i]).rePend = true) (value : (s.pubs.table[i]).hasValue = true) :
    updateSent s i repeated = placeItem ((sentOnce s i repeated).updPub i fun e => { e with item := some .newValue }) (.update i)
      (s.pubs.table[i]).cls := by
  have fields : ∀ e : PubEntry, (e.cleanEnd repeated).hasValue = e.hasValue ∧ (e.cleanEnd repeated).cls = e.cls ∧
      (e.cleanEnd repeated).item = none := fun e => by cases repeated <;> exact ⟨rfl, rfl, rfl⟩
  obtain ⟨hasValue, cls, item⟩ := fields (s.pubs.table[i])
  rw [updateSent_of_kept (by rw [active]; exact nofun) member, if_pos marked, makePendingNew_of_no_item]
  · rw [sentOnce_entry]
    exact congrArg _ cls
  · rw [sentOnce_entry]
    exact (PubEntry.cleanEnd_state _ _).trans active
  · rw [sentOnce_entry]
    exact hasValue.trans value
  · rw [sentOnce_entry]
    exact item

end Sent

/-! ## The owners of the items (R30) -/

section Owners

variable {s : State} {x : Flight}

theorem ownerClean_of_update {i : PubIndex} (kind : x.kind = .update i) (s : State) :
    ownerClean x s = updateSent s i x.latchedRepeat := by
  simp only [ownerClean, kind]

theorem ownerClean_of_recall {topic : Topic} (kind : x.kind = .recallItem topic) (s : State) :
    ownerClean x s = recallSent s topic := by
  simp only [ownerClean, kind]

theorem ownerClean_of_other (noUpdate : ∀ i, x.kind ≠ .update i) (noRecall : ∀ topic, x.kind ≠ .recallItem topic) (s : State) :
    ownerClean x s = s := by
  unfold ownerClean
  cases kind : x.kind with
  | update i => exact absurd kind (noUpdate i)
  | recallItem topic => exact absurd kind (noRecall topic)
  | claim => rfl
  | presence d => rfl
  | epoch => rfl

theorem updateSent_cont (s : State) (i : PubIndex) (repeated : Bool) : (updateSent s i repeated).cont = s.cont := by
  rw [updateSent_eq, setPubs_cont]

theorem recallSent_pubs (s : State) (topic : Topic) : (recallSent s topic).pubs = s.pubs := by
  rw [recallSent_eq, setCont_pubs]

theorem recallSent_tracker (s : State) (topic : Topic) : (recallSent s topic).cont.tracker = s.cont.tracker := by
  unfold recallSent
  split <;> rfl

theorem recallSent_of_found {topic : Topic} {p : RecallPos} {rec : Record} (recorded : s.session.record = some rec)
    (found : recallAt s topic = some p) : recallSent s topic =
      s.updRecall p fun e => { e with state := .sent, deadline := some (rec.recallWait * 1000) } := by
  unfold recallSent
  rw [found, recallWait_of_record recorded]

/-- The recalls are the owner's only where a RECALL has ended. -/
theorem ownerClean_recalls (noRecall : ∀ topic, x.kind ≠ .recallItem topic) (s : State) :
    (ownerClean x s).cont = s.cont := by
  cases kind : x.kind with
  | update i =>
    rw [ownerClean_of_update kind]
    exact updateSent_cont _ _ _
  | recallItem topic => exact absurd kind (noRecall topic)
  | claim => rw [ownerClean_of_other] <;> rw [kind] <;> nofun
  | presence d => rw [ownerClean_of_other] <;> rw [kind] <;> nofun
  | epoch => rw [ownerClean_of_other] <;> rw [kind] <;> nofun

end Owners

/-! ## The announce (R124) -/

theorem announceEntry_of_active {s : State} {i : PubIndex} (active : (s.pubs.table[i]).state = .active) :
    announceEntry s i = (makePendingNew (s.updPub i fun e =>
      { e.clearMarks with nextSeq := 0, firstArmed := true, holdOff := none, dirty := e.dirty || e.hasValue }) i).updPub i
        PubEntry.startPeriod := if_pos active

theorem announceEntry_of_inactive {s : State} {i : PubIndex} (inactive : (s.pubs.table[i]).state ≠ .active) :
    announceEntry s i = s := if_neg inactive

theorem announceEntry_others {s : State} {i j : PubIndex} (other : j ≠ i) :
    (announceEntry s i).pubs.table[j] = s.pubs.table[j] := by
  by_cases active : (s.pubs.table[i]).state = .active
  · rw [announceEntry_of_active active]
    exact ((updPub_other _ _ other).trans (makePendingNew_other other)).trans (updPub_other s _ other)
  · rw [announceEntry_of_inactive active]

/-- Only UPDATE items come to the list, and none goes. -/
theorem makePendingNew_items (s : State) (i : PubIndex) : s.pubs.items ⊆ (makePendingNew s i).pubs.items ∧
    ∀ it ∈ (makePendingNew s i).pubs.items, it ∈ s.pubs.items ∨ it.kind = .update i := by
  unfold makePendingNew
  dsimp only
  split
  · split
    · refine ⟨fun it listed => mem_insertItem.mpr (.inr listed), fun it listed => ?_⟩
      obtain rfl | kept := mem_insertItem.mp listed
      · exact .inr rfl
      · exact .inl kept
    · exact ⟨fun it listed => listed, fun it => .inl⟩
    · exact ⟨fun it listed => listed, fun it => .inl⟩
  · exact ⟨fun it listed => listed, fun it => .inl⟩

theorem announceEntry_items (s : State) (i : PubIndex) : s.pubs.items ⊆ (announceEntry s i).pubs.items ∧
    ∀ it ∈ (announceEntry s i).pubs.items, it ∈ s.pubs.items ∨ it.kind = .update i := by
  by_cases active : (s.pubs.table[i]).state = .active
  · rw [announceEntry_of_active active]
    generalize entry : (s.updPub i fun e =>
      { e.clearMarks with nextSeq := 0, firstArmed := true, holdOff := none, dirty := e.dirty || e.hasValue }) = u
    have items : u.pubs.items = s.pubs.items := entry ▸ rfl
    rw [← items]
    exact makePendingNew_items u i
  · rw [announceEntry_of_inactive active]
    exact ⟨fun it listed => listed, fun it => .inl⟩

/-- What the announce makes of an ACTIVE entry: numbers from 0, and a pending item where it has a value. -/
def Announced (s t : State) (i : PubIndex) : Prop :=
  (t.pubs.table[i]).nextSeq = 0 ∧ (t.pubs.table[i]).firstArmed = true ∧
  ((s.pubs.table[i]).hasValue = true → (s.pubs.table[i]).item = none →
    (t.pubs.table[i]).item = some .newValue ∧ ∃ it ∈ t.pubs.items, it.kind = .update i)

theorem PubEntry.startPeriod_fields (e : PubEntry) : e.startPeriod.nextSeq = e.nextSeq ∧
    e.startPeriod.firstArmed = e.firstArmed ∧ e.startPeriod.item = e.item := by
  unfold PubEntry.startPeriod
  split <;> exact ⟨rfl, rfl, rfl⟩

theorem announceEntry_announced {s : State} {i : PubIndex} (active : (s.pubs.table[i]).state = .active) :
    Announced s (announceEntry s i) i := by
  rw [announceEntry_of_active active]
  generalize entry : (s.updPub i fun e =>
    { e.clearMarks with nextSeq := 0, firstArmed := true, holdOff := none, dirty := e.dirty || e.hasValue }) = u
  have self : u.pubs.table[i] = _ := entry ▸ updPub_self s i _
  have pending := makePendingNew_entry u i
  have last := updPub_self (makePendingNew u i) i PubEntry.startPeriod
  obtain ⟨seq, armed, item⟩ := PubEntry.startPeriod_fields (makePendingNew u i).pubs.table[i]
  unfold Announced
  rw [last, seq, armed, item]
  refine ⟨?_, ?_, fun value none => ?_⟩
  · rw [pending, self]
  · rw [pending, self]
  · have placed := makePendingNew_of_no_item (s := u) (i := i) (by rw [self]; exact active) (by rw [self]; exact value)
      (by rw [self]; exact none)
    rw [placed]
    exact ⟨congrArg PubEntry.item (updPub_self u i _), _, mem_insertItem.mpr (.inl rfl), rfl⟩

/-- Announcing other entries does not touch this one. -/
theorem foldl_announceEntry {i : PubIndex} (js : List PubIndex) (absent : i ∉ js) (s : State) :
    (js.foldl announceEntry s).pubs.table[i] = s.pubs.table[i] := by
  induction js generalizing s with
  | nil => rfl
  | cons j js ih =>
    have apart : i ≠ j := fun same => absent (same ▸ List.mem_cons_self)
    exact (ih (fun listed => absent (List.mem_cons_of_mem _ listed)) _).trans (announceEntry_others apart)

theorem foldl_announceEntry_items (js : List PubIndex) (s : State) :
    s.pubs.items ⊆ (js.foldl announceEntry s).pubs.items ∧
      ∀ it ∈ (js.foldl announceEntry s).pubs.items, it ∈ s.pubs.items ∨ ∃ i, it.kind = .update i := by
  induction js generalizing s with
  | nil => exact ⟨fun it listed => listed, fun it => .inl⟩
  | cons j js ih =>
    obtain ⟨grows, updates⟩ := announceEntry_items s j
    obtain ⟨grows', updates'⟩ := ih (announceEntry s j)
    refine ⟨fun it listed => grows' (grows listed), fun it listed => ?_⟩
    obtain kept | update := updates' it listed
    · exact (updates it kept).imp id fun kind => ⟨j, kind⟩
    · exact .inr update

theorem announce_items (s : State) : s.pubs.items ⊆ (announce s).pubs.items ∧
    ∀ it ∈ (announce s).pubs.items, it ∈ s.pubs.items ∨ ∃ i, it.kind = .update i := by
  unfold announce
  exact foldl_announceEntry_items _ s

theorem announce_announced {s : State} {i : PubIndex} (active : (s.pubs.table[i]).state = .active) :
    Announced s (announce s) i := by
  obtain ⟨before, after, split, -⟩ := finRange_split i
  have distinct := List.nodup_finRange 32
  rw [split, List.nodup_middle, List.nodup_cons, List.mem_append, not_or] at distinct
  obtain ⟨⟨noneBefore, noneAfter⟩, -⟩ := distinct
  have reached := foldl_announceEntry before noneBefore s
  have folded : announce s = after.foldl announceEntry (announceEntry (before.foldl announceEntry s) i) := by
    unfold announce
    rw [split, List.foldl_append, List.foldl_cons]
  rw [folded]
  generalize before.foldl announceEntry s = u at reached
  obtain ⟨seq, armed, pending⟩ := announceEntry_announced (s := u) (i := i) (by rw [reached]; exact active)
  obtain ⟨grows, -⟩ := foldl_announceEntry_items after (announceEntry u i)
  unfold Announced
  rw [foldl_announceEntry after noneAfter]
  rw [reached] at pending
  refine ⟨seq, armed, fun value none => ?_⟩
  obtain ⟨item, it, listed, kind⟩ := pending value none
  exact ⟨item, it, grows listed, kind⟩

end Sys2Proof.Machine
end

section
/-! The clean CLAIM, and the own clean ends in MEMBER (R30, R46, R49). -/

namespace Sys2Proof.Machine

section Ends

variable {s t : State} {levels : List LineLevel} {r : Reception} {x : Flight} {f : Frame}

/-- What stands after the clean CLAIM: MEMBER, with every publication announced (R46, R124). -/
theorem CleanEnd.echo_claim {rec : Record} {tag : UnitTag} (h : CleanEnd s t levels r f) (own : r.own = true)
    (flying : s.access.inFlight = some x) (kind : x.kind = .claim) (body : f.body = .claim tag)
    (claiming : s.session.state = .claiming) (recorded : s.session.record = some rec) :
    t.session = { s.session with state := .member, presenceTimer := some (rec.presenceInterval * 10 * 1000) } ∧
    notified s t .joined ∧
    ∃ u : State, u.pubs = (removeItem s .claim).pubs ∧ t.pubs = (announce u).pubs := by
  obtain ⟨L, pubs, -, -, access⟩ := accessAtFrame_echo_eq (levels := levels) (r := r) (f := f) flying
  obtain ⟨z, -, zPubs, -, -, tSession, tPubs, -⟩ := h.behindOwn own
  have owned : ownerClean x L = L := ownerClean_of_other (by rw [kind]; nofun) (by rw [kind]; nofun) L
  have parts := framed_eq s levels r
  rw [kind] at pubs
  rw [owned] at access
  generalize taken : (accessAtFrame true f (framed s levels r)).1 = y at access
  have ySession : y.session = s.session := by
    rw [access, parts]
  have yPubs : y.pubs = (removeItem s .claim).pubs := by
    rw [access]
    exact pubs
  have enters : sessionAtFrame true f y = enterMember y := by
    unfold sessionAtFrame ownCleanEnd
    rw [if_pos rfl, ySession, claiming, body]
  have group := session_group r.own (impliedHeader levels s r).2 f (framed s levels r)
  rw [own, taken, enters] at group
  have restarts : restartPresence (y.setSession { y.session with state := .member }) =
      y.setSession { y.session with state := .member, presenceTimer := some (rec.presenceInterval * 10 * 1000) } :=
    restartPresence_of_record (ySession ▸ recorded)
  have after : afterSession true f (framed s levels r) =
      announce (restartPresence (y.setSession { y.session with state := .member })) := by
    simp only [afterSession, taken, enters, enterMember]
  rw [restarts] at after
  have still : continuityAtFrame true f z = (z, []) := continuityAtFrame_own_still fun _ _ _ _ _ update => by
    rw [body] at update
    cases update
  have posted := h.posted
  rw [own] at posted
  refine ⟨?_, posted.notified group List.mem_cons_self, y.setSession
    { y.session with state := .member, presenceTimer := some (rec.presenceInterval * 10 * 1000) }, yPubs, ?_⟩
  · rw [tSession, after, announce_eq, setPubs_session, ← ySession]
    rfl
  · rw [tPubs, still, zPubs, after]

end Ends

/-! ## The parts after an own frame in MEMBER -/

theorem update_of_kind {x : Flight} {f : Frame} {i : PubIndex} (sort : f.body.kind = x.kind.frameKind) (kind : x.kind = .update i) :
    ∃ first again topic seq payload, f.body = .update first again topic seq payload := by
  rw [kind] at sort
  cases body : f.body with
  | update first again topic seq payload => exact ⟨_, _, _, _, _, rfl⟩
  | recallFor topic => rw [body] at sort; cases sort
  | epoch e => rw [body] at sort; cases sort
  | presence caution defence noEpoch tag last => rw [body] at sort; cases sort
  | claim tag => rw [body] at sort; cases sort

theorem not_update_of_kind {x : Flight} {f : Frame} (sort : f.body.kind = x.kind.frameKind) (kind : ∀ i, x.kind ≠ .update i) :
    ∀ first again topic seq payload, f.body ≠ .update first again topic seq payload := fun first again topic seq payload body => by
  rw [body] at sort
  cases item : x.kind with
  | update i => exact kind i item
  | recallItem topic => rw [item] at sort; cases sort
  | epoch => rw [item] at sort; cases sort
  | presence d => rw [item] at sort; cases sort
  | claim => rw [item] at sort; cases sort

theorem kind_of_epoch {x : Flight} {f : Frame} {e : SeqNo} (sort : f.body.kind = x.kind.frameKind) (body : f.body = .epoch e) :
    x.kind = .epoch := by
  rw [body] at sort
  cases item : x.kind with
  | epoch => rfl
  | update i => rw [item] at sort; cases sort
  | recallItem topic => rw [item] at sort; cases sort
  | presence d => rw [item] at sort; cases sort
  | claim => rw [item] at sort; cases sort

/-- The notice of the end of an own EPOCH (R159). -/
theorem CleanEnd.echo_epochDone {s t : State} {levels : List LineLevel} {r : Reception} {f : Frame} {e : SeqNo}
    (h : CleanEnd s t levels r f) (own : r.own = true) (body : f.body = .epoch e) :
    notified s t (.epochDone (.sent e f.source)) := by
  have posted := h.posted
  rw [own] at posted
  refine posted.notified (g := (epochAtFrame true f (continuityAtFrame true f (publicationAtFrame true f
    (afterAcceptance true (impliedHeader levels s r).2 f (framed s levels r))).1).1).2) ?_ ?_
  · unfold frameNotices
    simp only [List.mem_cons, true_or, or_true]
  · obtain ⟨-, -, -, -, done⟩ := epochAtFrame_own (f := f) (e := e) (continuityAtFrame true f (publicationAtFrame true f
      (afterAcceptance true (impliedHeader levels s r).2 f (framed s levels r))).1).1 body
    exact done

/-- An answer leaves the publications, and takes nothing but a RECALL item from the list (R150). -/
theorem answerRecall_keeps (s : State) (topic : Topic) : (answerRecall s topic).1.pubs.table = s.pubs.table ∧
    ∀ it ∈ s.pubs.items, (∀ topic, it.kind ≠ .recallItem topic) → it ∈ (answerRecall s topic).1.pubs.items := by
  cases found : recallAt s topic with
  | none =>
    rw [answerRecall_of_none found]
    exact ⟨rfl, fun it listed _ => listed⟩
  | some p =>
    rw [answerRecall_pubs found]
    split
    · exact ⟨rfl, fun it listed other => List.mem_filter.mpr ⟨listed, bne_iff_ne.mpr (other _)⟩⟩
    · exact ⟨rfl, fun it listed _ => listed⟩

namespace MemberEnd

variable {s t L z : State} {x : Flight} {f : Frame}

theorem entry (h : MemberEnd s t L z x f) (i : PubIndex) : L.pubs.table[i] = s.pubs.table[i] := by
  rw [h.pubs]
  rfl

theorem list (h : MemberEnd s t L z x f) : L.pubs.items = s.pubs.items.filter fun it => it.kind != x.kind := by
  rw [h.pubs]
  rfl

/-- Only an UPDATE goes on to the Continuity Unit. -/
theorem still (h : MemberEnd s t L z x f) (sort : f.body.kind = x.kind.frameKind) (kind : ∀ i, x.kind ≠ .update i) :
    t.pubs = (ownerClean x L).pubs ∧ t.cont = (ownerClean x L).cont ∧ t.epoch = (epochAtFrame true f z).1.epoch := by
  have other := not_update_of_kind sort kind
  have passes : continuityAtFrame true f z = (z, []) := continuityAtFrame_own_still fun _ _ _ _ _ body => absurd body (other _ _ _ _ _)
  have pubs := h.endPubs
  have recalls := h.endRecalls
  have epoch := h.endEpoch
  have tracker := h.tracker other
  rw [passes] at pubs recalls epoch
  refine ⟨pubs.trans h.told, ?_, epoch⟩
  replace recalls := recalls.trans h.recalls
  generalize t.cont = c at tracker recalls
  generalize (ownerClean x L).cont = c' at tracker recalls
  cases c
  cases c'
  cases tracker
  cases recalls
  rfl

/-- The list after an own frame that answers no recall and is not sent again (R30). -/
theorem items (h : MemberEnd s t L z x f) (sort : f.body.kind = x.kind.frameKind) (member : s.session.state = .member)
    (uncalled : ∀ p : RecallPos, (s.cont.recalls[p]).state = .free ∨ ∃ topic, x.kind = .recallItem topic)
    (once : ∀ i, x.kind = .update i → (s.pubs.table[i]).rePend = false ∨ (s.pubs.table[i]).state ≠ .active) :
    t.pubs.items = s.pubs.items.filter fun it => it.kind != x.kind := by
  rw [← h.list]
  cases kind : x.kind with
  | update i =>
    have free : ∀ p : RecallPos, (L.cont.recalls[p]).state = .free := fun p => by
      rw [h.cont]
      exact (uncalled p).resolve_right fun ⟨topic, recalls⟩ => by rw [kind] at recalls; cases recalls
    have owner := ownerClean_of_update kind L
    have recalls := h.recalls
    have told := h.told
    have pubs := h.endPubs
    have none : ∀ topic, recallAt z topic = none := fun topic => recallAt_eq_none fun p busy => by
      rw [recalls, owner, updateSent_cont] at busy
      exact absurd (free p) busy
    rw [continuityAtFrame_own_still fun _ _ _ _ _ _ => none _] at pubs
    rw [pubs, told, owner]
    exact updateSent_items (h.session ▸ member) (by rw [h.entry]; exact once i kind)
  | recallItem topic =>
    rw [(h.still sort (by rw [kind]; nofun)).1, ownerClean_of_recall kind, recallSent_pubs]
  | claim => rw [(h.still sort (by rw [kind]; nofun)).1, ownerClean_of_other] <;> rw [kind] <;> nofun
  | presence d => rw [(h.still sort (by rw [kind]; nofun)).1, ownerClean_of_other] <;> rw [kind] <;> nofun
  | epoch => rw [(h.still sort (by rw [kind]; nofun)).1, ownerClean_of_other] <;> rw [kind] <;> nofun

/-- After an UPDATE, publications as the Publication Unit left them, and every item but a RECALL's. -/
theorem updated (h : MemberEnd s t L z x f) {i : PubIndex} (sort : f.body.kind = x.kind.frameKind) (kind : x.kind = .update i) :
    t.pubs.table = (updateSent L i x.latchedRepeat).pubs.table ∧
    ∀ it ∈ (updateSent L i x.latchedRepeat).pubs.items, (∀ topic, it.kind ≠ .recallItem topic) → it ∈ t.pubs.items := by
  obtain ⟨first, again, topic, seq, payload, body⟩ := update_of_kind sort kind
  have pubs := h.endPubs
  have told := h.told
  rw [ownerClean_of_update kind] at told
  rw [continuityAtFrame_of_update z body] at pubs
  obtain ⟨table, items⟩ := answerRecall_keeps z topic
  rw [← pubs, told] at table
  rw [← pubs, told] at items
  exact ⟨table, items⟩

/-- An UPDATE answers the recall of its topic (R150). -/
theorem answered (h : MemberEnd s t L z x f) {i : PubIndex} (kind : x.kind = .update i) {first again : Bool} {topic : Topic}
    {seq : SeqNo} {payload : List Byte} (body : f.body = .update first again topic seq payload) (fits : s.cont.recallsFit)
    {p : RecallPos} (busy : (s.cont.recalls[p]).state ≠ .free) (same : (s.cont.recalls[p]).topic = topic) :
    t.cont.recalls[p] = RecallEntry.initial := by
  have recalls := h.recalls
  rw [ownerClean_of_update kind, updateSent_cont, h.cont] at recalls
  have found : recallAt z topic = some p := (recallAt_congr recalls _).trans (recallAt_eq_some fits busy same)
  rw [h.endRecalls, continuityAtFrame_of_update z body, answerRecall_cont found]
  exact updRecall_self z p _

end MemberEnd

/-- Settles O21: the echo ends as it was sent, the owner of its item is told, and the Session Controller enters or keeps MEMBER. -/
theorem cleanClaimMakesAMember : Obligations.CleanClaimMakesAMember := by
  refine ⟨fun s rec x running opened driving claiming recorded flying kind covered => ?_,
    fun s rec x f echo recorded member => ?_⟩
  · have sent : OwnEcho s x { cls := 7, source := rec.station, body := .claim rec.unitTag } :=
      ⟨running, opened, driving, flying, covered, ⟨rfl, trivial⟩, by rw [kind]; rfl, (ownNumber_of_record recorded).symm⟩
    obtain ⟨t, next, ended⟩ := sent.echo.next (by rw [claiming]; exact nofun)
    obtain ⟨settled, b, access⟩ := ended.echo_access rfl flying
    obtain ⟨session, joined, u, uPubs, tPubs⟩ := ended.echo_claim rfl flying kind rfl claiming recorded
    have entry : ∀ i : PubIndex, u.pubs.table[i] = s.pubs.table[i] := fun i => by rw [uPubs]; rfl
    refine ⟨t, next, session, by rw [access], ?_, settled, by rw [access], fun it listed => ?_, fun i active => ?_, joined⟩
    · rw [access]
      exact upd_getElem_self _ _ _
    · rw [tPubs] at listed
      obtain kept | ⟨i, update⟩ := (announce_items u).2 it listed
      · rw [uPubs] at kept
        exact bne_iff_ne.mp (List.mem_filter.mp kept).2
      · rw [update]
        exact nofun
    · rw [← entry i] at active ⊢
      rw [tPubs]
      exact announce_announced active
  · have sent := echo
    obtain ⟨-, -, -, flying, -, -, sort, source⟩ := sent
    obtain ⟨t, next, ended⟩ := echo.echo.next (by rw [member]; exact nofun)
    obtain ⟨settled, b, access⟩ := ended.echo_access rfl flying
    have line := ended.echo_line rfl flying
    obtain ⟨session, L, z, h⟩ := ended.echo_member rfl flying member recorded
    have own : f.source = rec.station := source.trans (ownNumber_of_record recorded)
    have member' : L.session.state = .member := h.session ▸ member
    refine ⟨t, next, by rw [line]; rfl, by rw [line], by rw [access], settled, session, by rw [access], ?_, ?_,
      fun c other => ?_, h.items sort member, fun i kind => ?_, fun topic kind => ?_, fun e body => ?_, fun defence kind => ?_⟩
    · rw [access]
      exact nextStanding_row _ _
    · rw [access]
      exact (upd_getElem_self _ _ _).trans own
    · rw [access]
      exact upd_getElem_of_ne _ _ other.symm
    · obtain ⟨table, placed⟩ := h.updated sort kind
      rw [table, ← h.entry i]
      refine ⟨fun j other => ?_, fun withdrawing => ?_, fun active => ?_, fun first again topic seq payload body fits p busy same =>
        h.answered kind body fits busy same⟩
      · rw [updateSent_others member' other, h.entry]
      · rw [updateSent_of_withdrawing withdrawing]
        exact updPub_self L i _
      · have kept : (L.pubs.table[i]).state ≠ .withdrawing := by
          rw [active]
          exact nofun
        have sent := PubEntry.cleanEnd_flight (L.pubs.table[i]) x.latchedRepeat
        have entry := updateSent_entry (repeated := x.latchedRepeat) kept member'
        refine ⟨?_, ?_, ?_, ?_, fun latched => ?_, fun latched => ?_, fun unmarked => ?_, fun marked value => ?_⟩
        · rw [entry, sent.1]
        · rw [entry]
        · rw [entry, PubEntry.cleanEnd_state]
          exact active
        · rw [entry]
          exact sent.2
        · rw [entry, latched]
          exact ⟨rfl, rfl, rfl⟩
        · rw [entry, latched]
          exact ⟨rfl, rfl, rfl⟩
        · rw [updateSent_of_unmarked kept member' unmarked, sentOnce_entry]
          exact PubEntry.cleanEnd_item _ _
        · have again := updateSent_of_marked (repeated := x.latchedRepeat) active member' marked value
          rw [again] at placed ⊢
          refine ⟨congrArg PubEntry.item (updPub_self (sentOnce L i x.latchedRepeat) i _),
            placed _ (mem_insertItem.mpr (.inl ?_)) nofun⟩
          have placements : L.pubs.placements = s.pubs.placements := by
            rw [h.pubs]
            rfl
          rw [← placements]
          rfl
    · have other : ∀ i, x.kind ≠ .update i := by
        rw [kind]
        exact nofun
      obtain ⟨pubs, cont, -⟩ := h.still sort other
      rw [ownerClean_of_recall kind] at pubs cont
      rw [pubs, cont, recallSent_pubs, recallSent_tracker, h.cont]
      refine ⟨by rw [h.pubs]; rfl, rfl, fun fits p busy same => ?_⟩
      have found : recallAt L topic = some p :=
        (recallAt_congr (congrArg ContinuityUnit.recalls h.cont) _).trans (recallAt_eq_some fits busy same)
      rw [recallSent_of_found (h.session ▸ recorded) found, ← h.cont]
      exact ⟨updRecall_self L p _, fun p' other => updRecall_other L _ other⟩
    · have other : ∀ i, x.kind ≠ .update i := fun i kind => by
        rw [kind, body] at sort
        cases sort
      have epoch : x.kind = .epoch := kind_of_epoch sort body
      obtain ⟨pubs, -, unit⟩ := h.still sort other
      rw [ownerClean_of_other other (by rw [epoch]; nofun)] at pubs
      obtain ⟨-, request, latched, seen, -⟩ := epochAtFrame_own z body
      rw [unit, pubs]
      exact ⟨by rw [h.pubs]; rfl, request, latched, seen, own ▸ ended.echo_epochDone rfl body⟩
    · have other : ∀ i, x.kind ≠ .update i := by
        rw [kind]
        exact nofun
      obtain ⟨pubs, cont, epoch⟩ := h.still sort other
      rw [ownerClean_of_other other (by rw [kind]; nofun)] at pubs cont
      have silent : epochAtFrame true f z = (z, []) := epochAtFrame_of_other z fun e body => by
        rw [kind, body] at sort
        cases sort
      rw [pubs, cont, epoch, silent]
      exact ⟨by rw [h.pubs]; rfl, h.epoch, h.cont⟩

end Sys2Proof.Machine
end

section
/-! A CLEAN UPDATE and its reservations: what becomes of each reserved target (R76 to R82, R90, R106, R107). -/

namespace Sys2Proof.Machine

/-! ## The lowest of the entries that deliver (R78) -/

theorem lowestOf_eq {i j : SubIndex} {is : List SubIndex} (listed : i ∈ j :: is) (lowest : ∀ k ∈ j :: is, i ≤ k) :
    lowestOf j is = i := by
  unfold lowestOf
  induction is generalizing j with
  | nil => exact (List.mem_singleton.mp listed).symm
  | cons k is ih =>
    rw [List.foldl_cons]
    have below := lowest j List.mem_cons_self
    have below' := lowest k (List.mem_cons_of_mem _ List.mem_cons_self)
    refine ih ?_ fun l among => ?_
    · obtain rfl | later := List.mem_cons.mp listed
      · rw [min_eq_left below']
        exact List.mem_cons_self
      · obtain rfl | later := List.mem_cons.mp later
        · rw [min_eq_right below]
          exact List.mem_cons_self
        · exact List.mem_cons_of_mem _ later
    · obtain rfl | later := List.mem_cons.mp among
      · exact le_min below below'
      · exact lowest l (List.mem_cons_of_mem _ (List.mem_cons_of_mem _ later))

/-! ## One reserved target (R77 to R79) -/

/-- The record that a delivery makes of the frame (R78, R90). -/
def frameRecord (own : Bool) (source : Station) (topic : Topic) (seq : SeqNo) (first again : Bool) (payload : List Byte)
    (c : Option Classification) (stamp : Stamp) (i : SubIndex) : QueueRecord :=
  { topic := topic, source := source, seq := seq, first := first, again := again, selfMade := own, gap := isGap c,
    missing := missingOf c, entry := i, stamp := stamp, payload := payload }

/-- The contents that a delivery gives a slot (R78, R106). -/
def frameContents (own : Bool) (source : Station) (topic : Topic) (seq : SeqNo) (first again : Bool) (payload : List Byte)
    (c : Option Classification) (stamp : Stamp) : Contents :=
  { topic := topic, source := source, seq := seq, first := first, again := again, selfMade := own, gap := isGap c,
    missing := missingOf c, payload := payload, stamp := stamp }

section Settle

variable {own : Bool} {source : Station} {topic : Topic} {seq : SeqNo} {first again : Bool} {payload : List Byte}
  {c : Option Classification} {s : State} {r : Reserved} {rs : List Reserved} {q : QueueNo} {k : SlotNo}

/-- No entry on the target delivers. -/
theorem filter_qualifies_nil (none : ∀ i ∈ r.entries, qualifies s c i = false) :
    r.entries.filter (qualifies s c) = [] :=
  List.filter_eq_nil_iff.mpr fun i listed delivers => Bool.false_ne_true ((none i listed).symm.trans delivers)

/-- Some entry on the target delivers. -/
theorem filter_qualifies_cons {i : SubIndex} (listed : i ∈ r.entries) (delivers : qualifies s c i = true) :
    ∃ j js, r.entries.filter (qualifies s c) = j :: js ∧ i ∈ j :: js := by
  have mem := List.mem_filter.mpr ⟨listed, delivers⟩
  cases rest : r.entries.filter (qualifies s c) with
  | nil => rw [rest] at mem; exact absurd mem List.not_mem_nil
  | cons j js => exact ⟨j, js, rfl, rest ▸ mem⟩

theorem settleTarget_queue_released (target : r.target = .queue q) (none : ∀ i ∈ r.entries, qualifies s c i = false) :
    settleTarget own source topic seq first again payload c s r = releaseCell s q := by
  simp only [settleTarget, filter_qualifies_nil none, target, releaseTarget]

theorem settleTarget_queue_delivered {j : SubIndex} {js : List SubIndex} (target : r.target = .queue q)
    (some : r.entries.filter (qualifies s c) = j :: js) : settleTarget own source topic seq first again payload c s r =
      deliverQueue s q (frameRecord own source topic seq first again payload c s.line.clock (lowestOf j js)) := by
  simp only [settleTarget, some, target, frameRecord]

theorem settleTarget_slot_delivered {j : SubIndex} {js : List SubIndex} (target : r.target = .slot k)
    (some : r.entries.filter (qualifies s c) = j :: js) : settleTarget own source topic seq first again payload c s r =
      s.updSlot k fun x => x.deliver (frameContents own source topic seq first again payload c s.line.clock) := by
  simp only [settleTarget, some, target, frameContents]

theorem settleTarget_slot_refreshed (target : r.target = .slot k) (none : ∀ i ∈ r.entries, qualifies s c i = false)
    (duplicate : c = some .duplicate) :
    settleTarget own source topic seq first again payload c s r = s.updSlot k Slot.refresh := by
  subst duplicate
  simp only [settleTarget, filter_qualifies_nil none, target]

theorem settleTarget_slot_kept (target : r.target = .slot k) (none : ∀ i ∈ r.entries, qualifies s c i = false)
    (other : c ≠ some .duplicate) : settleTarget own source topic seq first again payload c s r = s := by
  cases c with
  | none => simp only [settleTarget, filter_qualifies_nil none, target, releaseTarget]
  | some d =>
    cases d with
    | duplicate => exact absurd rfl other
    | fresh | rebase | inOrder | gap _ | behind =>
      simp only [settleTarget, filter_qualifies_nil none, target, releaseTarget]

/-- What settling a target can do to the state. -/
theorem settleTarget_cases {P : State → Prop} (released : ∀ q, r.target = .queue q → P (releaseCell s q))
    (recorded : ∀ q record, r.target = .queue q → P (deliverQueue s q record))
    (slotted : ∀ k g, r.target = .slot k → P (s.updSlot k g)) (kept : ∀ k, r.target = .slot k → P s) :
    P (settleTarget own source topic seq first again payload c s r) := by
  by_cases none : ∀ i ∈ r.entries, qualifies s c i = false
  · cases target : r.target with
    | queue q =>
      rw [settleTarget_queue_released target none]
      exact released q target
    | slot k =>
      by_cases duplicate : c = some .duplicate
      · rw [settleTarget_slot_refreshed target none duplicate]
        exact slotted k _ target
      · rw [settleTarget_slot_kept target none duplicate]
        exact kept k target
  · push Not at none
    obtain ⟨i, listed, delivers⟩ := none
    obtain ⟨j, js, some, -⟩ := filter_qualifies_cons listed (Bool.eq_true_of_not_eq_false delivers)
    cases target : r.target with
    | queue q =>
      rw [settleTarget_queue_delivered target some]
      exact recorded q _ target
    | slot k =>
      rw [settleTarget_slot_delivered target some]
      exact slotted k _ target

/-- A target other than the queue leaves the queue. -/
theorem settleTarget_queue_of_ne (other : r.target ≠ .queue q) :
    (settleTarget own source topic seq first again payload c s r).store.queues[q] = s.store.queues[q] :=
  settleTarget_cases (P := fun t : State => t.store.queues[q] = s.store.queues[q])
    (fun q' target => upd_getElem_of_ne _ _ fun same => other (same ▸ target))
    (fun q' _ target => upd_getElem_of_ne _ _ fun same => other (same ▸ target)) (fun _ _ _ => rfl) fun _ _ => rfl

/-- A target other than the slot leaves the slot. -/
theorem settleTarget_slot_of_ne (other : r.target ≠ .slot k) :
    (settleTarget own source topic seq first again payload c s r).store.slots[k] = s.store.slots[k] :=
  settleTarget_cases (P := fun t : State => t.store.slots[k] = s.store.slots[k]) (fun _ _ => rfl) (fun _ _ _ => rfl)
    (fun k' _ target => upd_getElem_of_ne _ _ fun same => other (same ▸ target)) fun _ _ => rfl

/-- The overflow state of a queue (R93). -/
def SameOverflow (x y : ReceiveQueue) : Prop :=
  y.overflow = x.overflow ∧ y.dropped = x.dropped ∧ y.lastReason = x.lastReason

theorem SameOverflow.of_upd {v : Vector ReceiveQueue 8} {q q' : QueueNo} {g : ReceiveQueue → ReceiveQueue}
    (same : ∀ x, SameOverflow x (g x)) : SameOverflow v[q] (upd v q' g)[q] := by
  rw [upd_getElem]
  split
  · rename_i at'
    exact at' ▸ same _
  · exact ⟨rfl, rfl, rfl⟩

theorem settleTarget_overflow (q : QueueNo) : SameOverflow s.store.queues[q]
    (settleTarget own source topic seq first again payload c s r).store.queues[q] :=
  settleTarget_cases (P := fun t : State => SameOverflow s.store.queues[q] t.store.queues[q])
    (fun _ _ => .of_upd fun _ => ⟨rfl, rfl, rfl⟩) (fun _ _ _ => .of_upd fun _ => ⟨rfl, rfl, rfl⟩)
    (fun _ _ _ => ⟨rfl, rfl, rfl⟩) fun _ _ => ⟨rfl, rfl, rfl⟩

/-! ## Every reserved target (R76) -/

theorem settleTargets_queue_of_ne (others : ∀ r ∈ rs, r.target ≠ .queue q) :
    (rs.foldl (settleTarget own source topic seq first again payload c) s).store.queues[q] = s.store.queues[q] :=
  List.foldlRecOn (motive := fun t : State => t.store.queues[q] = s.store.queues[q]) rs _ rfl
    fun _ same r listed => (settleTarget_queue_of_ne (others r listed)).trans same

theorem settleTargets_slot_of_ne (others : ∀ r ∈ rs, r.target ≠ .slot k) :
    (rs.foldl (settleTarget own source topic seq first again payload c) s).store.slots[k] = s.store.slots[k] :=
  List.foldlRecOn (motive := fun t : State => t.store.slots[k] = s.store.slots[k]) rs _ rfl
    fun _ same r listed => (settleTarget_slot_of_ne (others r listed)).trans same

theorem settleTargets_overflow (q : QueueNo) : SameOverflow s.store.queues[q]
    (rs.foldl (settleTarget own source topic seq first again payload c) s).store.queues[q] :=
  List.foldlRecOn (motive := fun t : State => SameOverflow s.store.queues[q] t.store.queues[q]) rs _ ⟨rfl, rfl, rfl⟩
    fun _ ⟨overflow, dropped, reason⟩ r _ => by
      obtain ⟨overflow', dropped', reason'⟩ := settleTarget_overflow (own := own) (source := source) (topic := topic) (seq := seq)
        (first := first) (again := again) (payload := payload) (c := c) (r := r) q
      exact ⟨overflow'.trans overflow, dropped'.trans dropped, reason'.trans reason⟩

/-- A target is settled in a state that differs from the first in other targets only. -/
theorem settleTargets_at {α : Type} {get : State → α} (distinct : rs.Pairwise fun a b => a.target ≠ b.target) (listed : r ∈ rs)
    (kept : ∀ (r' : Reserved) (u : State), r'.target ≠ r.target →
      get (settleTarget own source topic seq first again payload c u r') = get u) :
    ∃ u : State, u.accept = s.accept ∧ u.line = s.line ∧ get u = get s ∧
      get (rs.foldl (settleTarget own source topic seq first again payload c) s) =
        get (settleTarget own source topic seq first again payload c u r) := by
  obtain ⟨before, after, rfl⟩ := List.append_of_mem listed
  rw [List.pairwise_append, List.pairwise_cons] at distinct
  obtain ⟨-, ⟨behind, -⟩, across⟩ := distinct
  have settled := settleTargets_eq own source topic seq first again payload c before s
  refine ⟨before.foldl (settleTarget own source topic seq first again payload c) s, ?_, ?_, ?_, ?_⟩
  · rw [settled, setStore_accept]
  · rw [settled, setStore_line]
  · exact List.foldlRecOn (motive := fun t : State => get t = get s) before _ rfl fun u same r' among =>
      (kept r' u (across r' among r List.mem_cons_self)).trans same
  · rw [List.foldl_append, List.foldl_cons]
    exact List.foldlRecOn (motive := fun t : State => get t = get _) after _ rfl fun u same r' among =>
      (kept r' u (behind r' among).symm).trans same

theorem qualifies_congr {u : State} (accept : u.accept = s.accept) : qualifies u c = qualifies s c := by
  unfold qualifies
  rw [accept]

/-- What becomes of a reserved queue (R77, R90, R91). -/
theorem settleTargets_queue (distinct : rs.Pairwise fun a b => a.target ≠ b.target) (listed : r ∈ rs) (target : r.target = .queue q) :
    let queue := (rs.foldl (settleTarget own source topic seq first again payload c) s).store.queues[q]
    queue.reserved = false ∧
    ((∀ i ∈ r.entries, qualifies s c i = false) → queue.records = (s.store.queues[q]).records) ∧
    ∀ i ∈ r.entries, qualifies s c i = true → (∀ j ∈ r.entries, qualifies s c j = true → i ≤ j) →
      queue.records = (s.store.queues[q]).records ++
        [frameRecord own source topic seq first again payload c s.line.clock i] := by
  obtain ⟨u, accept, line, before, settled⟩ := settleTargets_at (own := own) (source := source) (topic := topic) (seq := seq)
    (first := first) (again := again) (payload := payload) (c := c) (s := s) (get := fun t : State => t.store.queues[q]) distinct listed
    fun r' u other => settleTarget_queue_of_ne (target ▸ other)
  have same : qualifies u c = qualifies s c := qualifies_congr accept
  dsimp only
  rw [settled, ← before, ← same, ← line]
  by_cases none : ∀ i ∈ r.entries, qualifies u c i = false
  · rw [settleTarget_queue_released target none]
    have released : (releaseCell u q).store.queues[q] = { u.store.queues[q] with reserved := false } := upd_getElem_self _ _ _
    rw [released]
    exact ⟨rfl, fun _ => rfl, fun i among delivers => absurd ((none i among).symm.trans delivers) Bool.false_ne_true⟩
  · push Not at none
    obtain ⟨i, among, delivers⟩ := none
    obtain ⟨j, js, some, -⟩ := filter_qualifies_cons among (Bool.eq_true_of_not_eq_false delivers)
    rw [settleTarget_queue_delivered target some]
    generalize frame : (fun i => frameRecord own source topic seq first again payload c u.line.clock i) = record
    have delivered : ∀ x, (deliverQueue u q x).store.queues[q] =
        { u.store.queues[q] with records := (u.store.queues[q]).records ++ [x], reserved := false } := fun x =>
      upd_getElem_self _ _ _
    rw [delivered]
    refine ⟨rfl, fun none => absurd (none i among) delivers, fun l among' delivers' lowest => ?_⟩
    have lowest' : lowestOf j js = l := lowestOf_eq (some ▸ List.mem_filter.mpr ⟨among', delivers'⟩) fun m later => by
      rw [← some] at later
      obtain ⟨entry, qualified⟩ := List.mem_filter.mp later
      exact lowest m entry qualified
    rw [lowest']

/-- What becomes of a reserved slot (R77, R79, R106, R107). -/
theorem settleTargets_slot (distinct : rs.Pairwise fun a b => a.target ≠ b.target) (listed : r ∈ rs) (target : r.target = .slot k) :
    let slot := (rs.foldl (settleTarget own source topic seq first again payload c) s).store.slots[k]
    ((∃ i ∈ r.entries, qualifies s c i = true) →
      slot = (s.store.slots[k]).deliver (frameContents own source topic seq first again payload c s.line.clock)) ∧
    ((∀ i ∈ r.entries, qualifies s c i = false) → c = some .duplicate → slot = (s.store.slots[k]).refresh) ∧
    ((∀ i ∈ r.entries, qualifies s c i = false) → c ≠ some .duplicate → slot = s.store.slots[k]) := by
  obtain ⟨u, accept, line, before, settled⟩ := settleTargets_at (own := own) (source := source) (topic := topic) (seq := seq)
    (first := first) (again := again) (payload := payload) (c := c) (s := s) (get := fun t : State => t.store.slots[k]) distinct listed
    fun r' u other => settleTarget_slot_of_ne (target ▸ other)
  have same : qualifies u c = qualifies s c := qualifies_congr accept
  dsimp only
  rw [settled, ← before, ← same, ← line]
  refine ⟨fun ⟨i, among, delivers⟩ => ?_, fun none duplicate => ?_, fun none other => ?_⟩
  · obtain ⟨j, js, some, -⟩ := filter_qualifies_cons among delivers
    rw [settleTarget_slot_delivered target some]
    exact upd_getElem_self _ _ _
  · rw [settleTarget_slot_refreshed target none duplicate]
    exact upd_getElem_self _ _ _
  · rw [settleTarget_slot_kept target none other]

/-- No cell goes back where every target delivers (R90). -/
theorem settleTargets_free (delivered : ∀ r ∈ rs, ∃ i ∈ r.entries, qualifies s c i = true) :
    (rs.foldl (settleTarget own source topic seq first again payload c) s).store.free = s.store.free := by
  refine (List.foldlRecOn (motive := fun t : State => t.accept = s.accept ∧ t.store.free = s.store.free) rs _ ⟨rfl, rfl⟩
    fun u ⟨accept, free⟩ r listed => ?_).2
  have settled := settleTarget_eq own source topic seq first again payload c u r
  refine ⟨by rw [settled, setStore_accept, accept], ?_⟩
  obtain ⟨i, among, delivers⟩ := delivered r listed
  obtain ⟨j, js, some, -⟩ := filter_qualifies_cons (s := u) (c := c) among (by rw [qualifies_congr accept]; exact delivers)
  cases target : r.target with
  | queue q =>
    rw [settleTarget_queue_delivered target some]
    exact free
  | slot k =>
    rw [settleTarget_slot_delivered target some]
    exact free

end Settle

end Sys2Proof.Machine
end

section
/-! FRAME_END of a CLEAN UPDATE with a header: the reservations settled, and the frame closed (R76 to R82, R93, R107, R142). -/

namespace Sys2Proof.Machine

/-! ## The overflow mark (R80, R93) -/

/-- A queue as it stood, with its overflow state left out. -/
theorem recordMark_queue (s : State) (q : QueueNo) :
    ((recordMark s).1.store.queues[q]).records = (s.store.queues[q]).records ∧
    ((recordMark s).1.store.queues[q]).reserved = (s.store.queues[q]).reserved := by
  unfold recordMark
  split
  · rename_i q' reason _
    unfold recordOverflow
    dsimp only
    rw [updQueue_store, upd_getElem]
    split
    · rename_i same
      subst same
      exact ⟨rfl, rfl⟩
    · exact ⟨rfl, rfl⟩
  · exact ⟨rfl, rfl⟩

theorem recordMark_slots (s : State) : (recordMark s).1.store.slots = s.store.slots := by
  unfold recordMark
  split <;> rfl

theorem recordMark_free (s : State) : (recordMark s).1.store.free = s.store.free := by
  unfold recordMark
  split <;> rfl

theorem recordMark_accept (s : State) : (recordMark s).1.accept = s.accept := by
  unfold recordMark
  split <;> rfl

theorem recordMark_of_mark {s : State} {q : QueueNo} {reason : OverflowReason} (mark : s.accept.plan.overflow = some (q, reason)) :
    recordMark s = recordOverflow s q reason := by
  simp only [recordMark, mark]

theorem recordMark_overflow_of_other {s : State} {q : QueueNo} (other : ∀ reason, s.accept.plan.overflow ≠ some (q, reason)) :
    SameOverflow s.store.queues[q] (recordMark s).1.store.queues[q] := by
  unfold recordMark
  split
  · rename_i q' reason mark
    have apart : q' ≠ q := fun same => other reason (same ▸ mark)
    have kept : (recordOverflow s q' reason).1.store.queues[q] = s.store.queues[q] := upd_getElem_of_ne _ _ apart
    rw [kept]
    exact ⟨rfl, rfl, rfl⟩
  · exact ⟨rfl, rfl, rfl⟩

theorem recordMark_overflow_of_mark {s : State} {q : QueueNo} {reason : OverflowReason}
    (mark : s.accept.plan.overflow = some (q, reason)) :
    ((recordMark s).1.store.queues[q]).overflow = true ∧ ((recordMark s).1.store.queues[q]).lastReason = some reason ∧
    ((recordMark s).1.store.queues[q]).dropped = min 255 ((s.store.queues[q]).dropped + 1) ∧
    (recordMark s).2 = if (s.store.queues[q]).overflow then [] else [.queueOverflow q reason] := by
  rw [recordMark_of_mark mark]
  have marked : (recordOverflow s q reason).1.store.queues[q] = { s.store.queues[q] with
      dropped := min 255 ((s.store.queues[q]).dropped + 1), lastReason := some reason, overflow := true } :=
    upd_getElem_self _ _ _
  rw [marked]
  exact ⟨rfl, rfl, rfl, rfl⟩

/-! ## The reservations settled (R76) -/

section Update

variable {own : Bool} {source : Station} {topic : Topic} {seq : SeqNo} {first again : Bool} {payload : List Byte} {s : State}

/-- The tracker apart, the targets are settled in the state of the frame end. -/
theorem trackClassified_eq (s : State) (source : Station) (topic : Topic) (seq : SeqNo) (c : Option Classification) :
    ∃ cont, trackClassified s source topic seq c = s.setCont cont := by
  cases c with
  | none => exact ⟨s.cont, rfl⟩
  | some c => exact ⟨_, rfl⟩

/-- The state in which the overflow mark is recorded: the tracker has the frame, and every reserved target is settled. -/
def settledTargets (own : Bool) (source : Station) (topic : Topic) (seq : SeqNo) (first again : Bool) (payload : List Byte)
    (c : Option Classification) (s : State) : State :=
  s.accept.plan.targets.foldl (settleTarget own source topic seq first again payload c) (trackClassified s source topic seq c)

theorem settleUpdate_def : settleUpdate own source topic seq first again payload s =
    (closeFrame (recordMark (settledTargets own source topic seq first again payload
      (frameClassification s source topic seq first) s)).1,
     (recordMark (settledTargets own source topic seq first again payload
      (frameClassification s source topic seq first) s)).2) := by
  unfold settleUpdate settledTargets
  dsimp only
  obtain ⟨cont, tracked⟩ := trackClassified_eq s source topic seq (frameClassification s source topic seq first)
  rw [tracked, setCont_accept]

variable {c : Option Classification}

theorem settledTargets_accept : (settledTargets own source topic seq first again payload c s).accept = s.accept := by
  obtain ⟨cont, tracked⟩ := trackClassified_eq s source topic seq c
  unfold settledTargets
  rw [settleTargets_eq, setStore_accept, tracked, setCont_accept]

/-- What the header-complete event said of the classification is what the frame end asks for (R76). -/
theorem frameClassification_eq
    (tracked : (∃ i : SubIndex, (s.accept.table[i]).engaged = true ∧ (s.accept.table[i]).track = true) →
      c = some (classify s.cont.tracker source topic seq first))
    (untracked : (∀ i : SubIndex, (s.accept.table[i]).engaged = true → (s.accept.table[i]).track = false) → c = none) :
    frameClassification s source topic seq first = c := by
  unfold frameClassification
  by_cases any : tabAny (fun e => e.engaged && e.track) s.accept.table = true
  · rw [if_pos any]
    obtain ⟨i, both⟩ := (tabAny_iff _ _).mp any
    exact (tracked ⟨i, (Bool.and_eq_true_iff.mp both)⟩).symm
  · rw [if_neg any]
    refine (untracked fun i engaged => Bool.eq_false_iff.mpr fun track => any ((tabAny_iff _ _).mpr ⟨i, Bool.and_eq_true_iff.mpr ⟨engaged, track⟩⟩)).symm

/-- The tracker after the frame (R142). -/
theorem trackClassified_tracker (s : State) (source : Station) (topic : Topic) (seq : SeqNo) (c : Option Classification) :
    (c = none ∨ c = some .behind → (trackClassified s source topic seq c).cont.tracker = s.cont.tracker) ∧
    (∀ old : List TrackEntry, c = some .fresh →
      (s.cont.tracker.length < 48 ∧ old = s.cont.tracker ∨ 48 ≤ s.cont.tracker.length ∧ old = s.cont.tracker.tail) →
      (trackClassified s source topic seq c).cont.tracker =
        old ++ [{ source := source, topic := topic, last := seq, heard := s.line.clock }]) ∧
    (∀ (before after : List TrackEntry) (x : TrackEntry), c.isSome = true → c ≠ some .fresh → c ≠ some .behind →
      s.cont.tracker = before ++ x :: after → x.source = source → x.topic = topic →
      (∀ y ∈ before ++ after, ¬(y.source = source ∧ y.topic = topic)) →
      (trackClassified s source topic seq c).cont.tracker =
        before ++ after ++ [{ source := source, topic := topic, last := seq, heard := s.line.clock }]) := by
  refine ⟨fun still => ?_, fun old fresh room => ?_, fun before after x classified notFresh notBehind tracker bySource byTopic
    others => ?_⟩
  · obtain rfl | rfl := still <;> rfl
  · subst fresh
    show (if 48 ≤ s.cont.tracker.length then s.cont.tracker.drop 1 else s.cont.tracker) ++ _ = _
    obtain ⟨short, rfl⟩ | ⟨full, rfl⟩ := room
    · rw [if_neg (Nat.not_le.mpr short)]
    · rw [if_pos full, List.drop_one]
  · have keyed : x.hasKey source topic = true := by
      rw [← bySource, ← byTopic]
      unfold TrackEntry.hasKey
      rw [beq_self_eq_true, beq_self_eq_true]
      rfl
    have kept : ∀ y ∈ before ++ after, (!y.hasKey source topic) = true := fun y listed => by
      have other := others y listed
      unfold TrackEntry.hasKey
      rw [Bool.not_eq_true', Bool.and_eq_false_iff, beq_eq_false_iff_ne, beq_eq_false_iff_ne, ← not_and_or]
      exact other
    have moved : (s.cont.tracker.filter fun y => !y.hasKey source topic) = before ++ after := by
      rw [tracker, List.filter_append, List.filter_cons_of_neg (by rw [keyed]; exact nofun), ← List.filter_append]
      exact List.filter_eq_self.mpr kept
    rw [← moved]
    cases c with
    | none => cases classified
    | some d =>
      cases d with
      | fresh => exact absurd rfl notFresh
      | behind => exact absurd rfl notBehind
      | rebase | duplicate | inOrder | gap _ => rfl

end Update

/-! ## The state at the end of the frame -/

theorem rosterAtFrame_cont_of_update {own : Bool} {f : Frame} {first again : Bool} {topic : Topic} {seq : SeqNo}
    {payload : List Byte} (s : State) (body : f.body = .update first again topic seq payload) :
    (rosterAtFrame own f s).1.cont = s.cont := by
  unfold rosterAtFrame
  split
  · rfl
  · split
    · rfl
    · rw [hearPeer_of_silent s (by rw [body]; rfl)]
      rfl

theorem accessAtFrame_tracker (own : Bool) (f : Frame) (s : State) :
    (accessAtFrame own f s).1.cont.tracker = s.cont.tracker := by
  have cleaned : ∀ u : State, (cleanEnd u).cont.tracker = u.cont.tracker := fun u => by
    cases flying : u.access.inFlight with
    | none => rw [cleanEnd_of_none flying]
    | some x =>
      rw [cleanEnd_of_flight flying]
      by_cases recalls : ∃ topic, x.kind = .recallItem topic
      · obtain ⟨topic, kind⟩ := recalls
        rw [ownerClean_of_recall kind, recallSent_tracker]
        rfl
      · rw [ownerClean_recalls fun topic kind => recalls ⟨topic, kind⟩]
        rfl
  unfold accessAtFrame
  dsimp only
  split
  · exact cleaned (setBase s f.cls f.source)
  · split <;> rfl

theorem sessionAtFrame_tracker (own : Bool) (f : Frame) (s : State) :
    (sessionAtFrame own f s).1.cont.tracker = s.cont.tracker := by
  have defended : (defend s).cont.tracker = s.cont.tracker := by rw [defend_eq, setPubs_cont]
  unfold sessionAtFrame
  split
  · unfold ownCleanEnd
    split
    · unfold enterMember
      dsimp only
      rw [announce_eq]
      rfl
    all_goals rfl
  · split
    · unfold foreignOwnNumber
      split
      · rfl
      · rfl
      · unfold answerDuplicate
        split
        · exact defended
        · dsimp only
          split
          · rfl
          · split <;> exact defended
        all_goals exact defended
      all_goals rfl
    · rfl

/-- The Acceptance Unit at the end of a CLEAN UPDATE with a header: what it finds, and what becomes of its parts. -/
theorem CleanEnd.accepted {s t : State} {levels : List LineLevel} {r : Reception} {f : Frame} {first again : Bool}
    {topic : Topic} {seq : SeqNo} {payload : List Byte} (h : CleanEnd s t levels r f) (seen : r.headerSeen = true)
    (body : f.body = .update first again topic seq payload) :
    ∃ u : State, u.accept = s.accept ∧ u.store = s.store ∧ u.cont.tracker = s.cont.tracker ∧ u.line.clock = s.line.clock ∧
      t.accept = (settleUpdate r.own f.source topic seq first again payload u).1.accept ∧
      t.store = (settleUpdate r.own f.source topic seq first again payload u).1.store ∧
      t.cont.tracker = (settleUpdate r.own f.source topic seq first again payload u).1.cont.tracker ∧
      FramePosted s t (frameNotices r.own true f (framed s levels r)) ∧
      (settleUpdate r.own f.source topic seq first again payload u).2 ∈ frameNotices r.own true f (framed s levels r) ∧
      ∀ P : Notice → Prop, (∀ n, P n → n.sort = 0x30) →
        (∀ n ∈ (settleUpdate r.own f.source topic seq first again payload u).2, ¬ P n) → unnotified s t P := by
  have implied : impliedHeader levels s r = (s, true) := if_pos seen
  have parts := framed_eq s levels r
  rw [implied] at parts
  have acts : acceptanceAtFrame r.own true f (afterRoster r.own f (framed s levels r)) =
      settleUpdate r.own f.source topic seq first again payload (afterRoster r.own f (framed s levels r)) := by
    simp only [acceptanceAtFrame, body, if_true]
  have accepted : afterAcceptance r.own true f (framed s levels r) = (settleUpdate r.own f.source topic seq first again payload
      (afterRoster r.own f (framed s levels r))).1 := congrArg Prod.fst acts
  have posted := h.posted
  have accept : t.accept = _ := h.accept.trans (afterBlocks_accept _ _ _ _)
  have store : t.store = _ := h.store.trans (afterBlocks_store _ _ _ _)
  have tracker : t.cont.tracker = _ := (congrArg ContinuityUnit.tracker h.cont).trans (afterBlocks_tracker _ _ _ _)
  rw [implied] at posted accept store tracker
  rw [accepted] at accept store tracker
  refine ⟨afterRoster r.own f (framed s levels r), ?_, ?_, ?_, ?_, accept, store, tracker, posted, ?_, fun P sort silent => ?_⟩
  · rw [afterRoster_accept, parts]
  · rw [afterRoster_store, parts]
  · have cont : (afterRoster r.own f (framed s levels r)).cont = _ := rosterAtFrame_cont_of_update _ body
    rw [cont]
    unfold afterSession
    rw [sessionAtFrame_tracker, accessAtFrame_tracker, parts]
  · have line := congrArg (fun u : State => u.line.clock) (afterRoster_eq r.own f (framed s levels r))
    refine line.trans ?_
    dsimp only
    unfold afterSession
    rw [sessionAtFrame_line, accessAtFrame_clock, parts]
    rfl
  · rw [← acts]
    unfold frameNotices
    simp only [List.mem_cons, true_or, or_true]
  · have sort' : ∀ n, P n → n.sort ∈ [(0x30 : Byte)] := fun n holds => List.mem_singleton.mpr (sort n holds)
    refine posted.unnotified (frameNotices_lack ((accessAtFrame_among _ _ _).lacks sort' (by decide))
      ((sessionAtFrame_among _ _ _).lacks sort' (by decide)) ((rosterAtFrame_among _ _ _).lacks sort' (by decide)) ?_
      ((publicationAtFrame_among _ _ _).lacks sort' (by decide)) ((continuityAtFrame_among _ _ _).lacks sort' (by decide))
      ((epochAtFrame_among _ _ _).lacks sort' (by decide)))
    rw [acts]
    exact silent

/-- A CLEAN UPDATE, foreign or the own echo in MEMBER: its end, and the booking behind it (R25, R27, R30). -/
theorem cleanEnd_of_update {s : State} {levels : List LineLevel} {r : Reception} {f : Frame}
    (clean : ForeignEnd s levels r f ∨ OwnEnd s levels r f) :
    ∃ t, exec (.frameEnd levels) s = .next t ∧ CleanEnd s t levels r f ∧ SettledBooking (afterFrame s r) t := by
  obtain foreign | echo := clean
  · obtain ⟨t, next, ended⟩ := foreign.next
    have own := foreign.isForeign
    have base : afterFrame s r = s := by
      unfold afterFrame
      rw [own, if_neg Bool.false_ne_true]
    exact ⟨t, next, ended, base.symm ▸ ended.settled_of_foreign own⟩
  · obtain ⟨x, sent⟩ := echo.echo
    obtain ⟨-, -, -, member, -⟩ := echo
    obtain ⟨t, next, ended⟩ := sent.next (by rw [member]; exact nofun)
    have base : afterFrame s r = landed s := if_pos sent.own
    exact ⟨t, next, ended, base.symm ▸ (ended.echo_access sent.own sent.flying).1⟩

end Sys2Proof.Machine
end

section
/-! The delivery of a CLEAN UPDATE (R76 to R82, R142). -/

namespace Sys2Proof.Machine

/-! ## Classification (R142) -/

theorem qualifies_iff (s : State) (c : Classification) (i : SubIndex) :
    (qualifies s none i = true ↔ (s.accept.table[i]).track = false) ∧
    (qualifies s (some c) i = true ↔ (s.accept.table[i]).track = false ∨ (c ≠ .duplicate ∧ c ≠ .behind)) := by
  unfold qualifies
  refine ⟨by rw [Bool.or_false, Bool.not_eq_true'], ?_⟩
  rw [Bool.or_eq_true, Bool.not_eq_true']
  refine or_congr Iff.rfl ?_
  cases c <;> simp [Classification.delivers]

theorem isGap_iff (c : Classification) : isGap (some c) = true ↔ ∃ n, c = .gap n := by
  cases c <;> simp [isGap]

theorem missingOf_of_other {c : Classification} (other : ∀ n, c ≠ .gap n) : missingOf (some c) = 0 := by
  cases c with
  | gap n => exact absurd rfl (other n)
  | fresh | rebase | duplicate | inOrder | behind => rfl

theorem hasKey_iff (x : TrackEntry) (source : Station) (topic : Topic) :
    x.hasKey source topic = true ↔ x.source = source ∧ x.topic = topic := by
  unfold TrackEntry.hasKey
  rw [Bool.and_eq_true, beq_iff_eq, beq_iff_eq]

/-- Without an entry of its key a frame is FRESH. -/
theorem classify_of_absent {before : List TrackEntry} {source : Station} {topic : Topic} (seq : SeqNo) (first : Bool)
    (absent : ∀ y ∈ before, ¬(y.source = source ∧ y.topic = topic)) : classify before source topic seq first = .fresh := by
  have none : before.find? (fun e => e.hasKey source topic) = none :=
    List.find?_eq_none.mpr fun y listed keyed => absent y listed ((hasKey_iff y source topic).mp keyed)
  simp only [classify, none]

/-- An entry of its key classifies the frame by the distance of the numbers. -/
theorem classify_of_found {before : List TrackEntry} {source : Station} {topic : Topic} (seq : SeqNo) (first : Bool)
    (after : List TrackEntry) {x : TrackEntry} (absent : ∀ y ∈ before, ¬(y.source = source ∧ y.topic = topic))
    (bySource : x.source = source) (byTopic : x.topic = topic) : classify (before ++ x :: after) source topic seq first =
      if first = true then .rebase
      else if (seq - x.last).toNat = 0 then .duplicate
      else if (seq - x.last).toNat = 1 then .inOrder
      else if (seq - x.last).toNat ≤ 127 then .gap ((seq - x.last).toNat - 1)
      else .behind := by
  have none : before.find? (fun e => e.hasKey source topic) = none :=
    List.find?_eq_none.mpr fun y listed keyed => absent y listed ((hasKey_iff y source topic).mp keyed)
  have found : (before ++ x :: after).find? (fun e => e.hasKey source topic) = some x := by
    rw [List.find?_append, none, Option.none_or,
      List.find?_cons_of_pos (p := fun e : TrackEntry => e.hasKey source topic) ((hasKey_iff x source topic).mpr ⟨bySource, byTopic⟩)]
  simp only [classify, found]

theorem classify_spec (before after : List TrackEntry) (x : TrackEntry) (source : Station) (topic : Topic) (seq : SeqNo)
    (first : Bool) (absent : ∀ y ∈ before, ¬(y.source = source ∧ y.topic = topic)) :
    classify before source topic seq first = .fresh ∧
    (x.source = source → x.topic = topic →
      (first = true → classify (before ++ x :: after) source topic seq first = .rebase) ∧
      (first = false →
        ((seq - x.last).toNat = 0 → classify (before ++ x :: after) source topic seq first = .duplicate) ∧
        ((seq - x.last).toNat = 1 → classify (before ++ x :: after) source topic seq first = .inOrder) ∧
        (2 ≤ (seq - x.last).toNat → (seq - x.last).toNat ≤ 127 →
          classify (before ++ x :: after) source topic seq first = .gap ((seq - x.last).toNat - 1)) ∧
        (128 ≤ (seq - x.last).toNat → classify (before ++ x :: after) source topic seq first = .behind))) := by
  refine ⟨classify_of_absent seq first absent, fun bySource byTopic => ?_⟩
  rw [classify_of_found seq first after absent bySource byTopic]
  generalize (seq - x.last).toNat = d
  refine ⟨fun first => if_pos first, fun later => ?_⟩
  rw [if_neg (by rw [later]; exact Bool.false_ne_true)]
  refine ⟨fun same => if_pos same, fun next => ?_, fun low high => ?_, fun far => ?_⟩
  · rw [if_neg (by omega), if_pos next]
  · rw [if_neg (by omega), if_neg (by omega), if_pos high]
  · rw [if_neg (by omega), if_neg (by omega), if_neg (by omega)]

theorem trackClassified_none (s : State) (source : Station) (topic : Topic) (seq : SeqNo) :
    trackClassified s source topic seq none = s := rfl

theorem recordMark_of_none {s : State} (unmarked : s.accept.plan.overflow = none) : recordMark s = (s, []) := by
  simp only [recordMark, unmarked]

/-! ## The Message Store behind the reservations -/

section Settled

variable {own : Bool} {source : Station} {topic : Topic} {seq : SeqNo} {first again : Bool} {payload : List Byte}
  {c : Option Classification} {s : State}

/-- What becomes of a queue at the end of the frame. -/
theorem settledTargets_queue {x : Reserved} {q : QueueNo}
    (distinct : s.accept.plan.targets.Pairwise fun a b => a.target ≠ b.target) (listed : x ∈ s.accept.plan.targets)
    (target : x.target = .queue q) :
    let queue := (recordMark (settledTargets own source topic seq first again payload c s)).1.store.queues[q]
    queue.reserved = false ∧
    ((∀ i ∈ x.entries, qualifies s c i = false) → queue.records = (s.store.queues[q]).records) ∧
    ∀ i ∈ x.entries, qualifies s c i = true → (∀ j ∈ x.entries, qualifies s c j = true → i ≤ j) →
      queue.records = (s.store.queues[q]).records ++
        [frameRecord own source topic seq first again payload c s.line.clock i] := by
  obtain ⟨cont, tracked⟩ := trackClassified_eq s source topic seq c
  dsimp only
  obtain ⟨records, reserved⟩ := recordMark_queue (settledTargets own source topic seq first again payload c s) q
  rw [records, reserved]
  unfold settledTargets
  rw [tracked]
  exact settleTargets_queue (s := s.setCont cont) distinct listed target

theorem settledTargets_queue_of_ne {q : QueueNo} (others : ∀ x ∈ s.accept.plan.targets, x.target ≠ .queue q) :
    ((recordMark (settledTargets own source topic seq first again payload c s)).1.store.queues[q]).records =
      (s.store.queues[q]).records ∧
    ((recordMark (settledTargets own source topic seq first again payload c s)).1.store.queues[q]).reserved =
      (s.store.queues[q]).reserved := by
  obtain ⟨cont, tracked⟩ := trackClassified_eq s source topic seq c
  obtain ⟨records, reserved⟩ := recordMark_queue (settledTargets own source topic seq first again payload c s) q
  rw [records, reserved]
  unfold settledTargets
  rw [tracked, settleTargets_queue_of_ne others]
  exact ⟨rfl, rfl⟩

/-- What becomes of a slot at the end of the frame. -/
theorem settledTargets_slot {x : Reserved} {k : SlotNo}
    (distinct : s.accept.plan.targets.Pairwise fun a b => a.target ≠ b.target) (listed : x ∈ s.accept.plan.targets)
    (target : x.target = .slot k) :
    let slot := (recordMark (settledTargets own source topic seq first again payload c s)).1.store.slots[k]
    ((∃ i ∈ x.entries, qualifies s c i = true) →
      slot = (s.store.slots[k]).deliver (frameContents own source topic seq first again payload c s.line.clock)) ∧
    ((∀ i ∈ x.entries, qualifies s c i = false) → c = some .duplicate → slot = (s.store.slots[k]).refresh) ∧
    ((∀ i ∈ x.entries, qualifies s c i = false) → c ≠ some .duplicate → slot = s.store.slots[k]) := by
  obtain ⟨cont, tracked⟩ := trackClassified_eq s source topic seq c
  dsimp only
  rw [recordMark_slots]
  unfold settledTargets
  rw [tracked]
  exact settleTargets_slot (s := s.setCont cont) distinct listed target

theorem settledTargets_slot_of_ne {k : SlotNo} (others : ∀ x ∈ s.accept.plan.targets, x.target ≠ .slot k) :
    (recordMark (settledTargets own source topic seq first again payload c s)).1.store.slots[k] = s.store.slots[k] := by
  obtain ⟨cont, tracked⟩ := trackClassified_eq s source topic seq c
  rw [recordMark_slots]
  unfold settledTargets
  rw [tracked, settleTargets_slot_of_ne others]
  rfl

theorem settledTargets_free (delivered : ∀ x ∈ s.accept.plan.targets, ∃ i ∈ x.entries, qualifies s c i = true) :
    (recordMark (settledTargets own source topic seq first again payload c s)).1.store.free = s.store.free := by
  obtain ⟨cont, tracked⟩ := trackClassified_eq s source topic seq c
  rw [recordMark_free]
  unfold settledTargets
  rw [tracked]
  exact settleTargets_free (s := s.setCont cont) delivered

theorem settledTargets_overflow (q : QueueNo) :
    SameOverflow s.store.queues[q] (settledTargets own source topic seq first again payload c s).store.queues[q] := by
  obtain ⟨cont, tracked⟩ := trackClassified_eq s source topic seq c
  unfold settledTargets
  rw [tracked]
  exact settleTargets_overflow q

/-- Every reserved cell goes back where nothing is delivered (R77, R91). -/
theorem settledTargets_freed (held : HoldsFor s.accept.plan.targets s)
    (none : ∀ x ∈ s.accept.plan.targets, ∀ i ∈ x.entries, qualifies s c i = false) :
    (recordMark (settledTargets own source topic seq first again payload c s)).1.store.free =
      s.store.free + s.store.reservedCells := by
  have settles : HoldsFor [] (settledTargets own source topic seq first again payload c s) ∧
      PoolKept s (settledTargets own source topic seq first again payload c s) := by
    obtain ⟨cont, tracked⟩ := trackClassified_eq s source topic seq c
    unfold settledTargets
    rw [tracked]
    obtain ⟨none, pool⟩ := settleAll_holdsFor (own := own) (x := source) (topic := topic) (seq := seq) (a := first) (b := again)
      (payload := payload) (c := c) (s := s.setCont cont) held
    exact ⟨none, pool.cells, pool.within⟩
  obtain ⟨empty, marked⟩ := recordMark_queues settles.1
  have records : ∀ q : QueueNo,
      ((recordMark (settledTargets own source topic seq first again payload c s)).1.store.queues[q]).records =
        (s.store.queues[q]).records := fun q => by
    by_cases named : ∃ x ∈ s.accept.plan.targets, x.target = .queue q
    · obtain ⟨x, listed, target⟩ := named
      obtain ⟨-, kept, -⟩ := settledTargets_queue (own := own) (source := source) (topic := topic) (seq := seq) (first := first)
        (again := again) (payload := payload) (c := c) held.1 listed target
      exact kept (none x listed)
    · exact (settledTargets_queue_of_ne fun x listed target => named ⟨x, listed, target⟩).1
  have count := (settles.2.trans marked).cells
  generalize (recordMark (settledTargets own source topic seq first again payload c s)).1 = t at empty records count
  have stored : t.store.storedCells = s.store.storedCells :=
    Finset.sum_congr rfl fun q _ => congrArg List.length (records q)
  have reserved := MessageStore.reservedCells_of_none (m := t.store) fun q => empty.none q
  rw [MessageStore.cellsUsed_eq_add, MessageStore.cellsUsed_eq_add, stored, reserved] at count
  omega

/-- A refreshed slot (R107). -/
theorem Slot.refresh_of_filled {k : Slot} (filled : k.state ≠ .empty) : k.refresh =
    { k with state := .fresh, reason := none, deadline := if k.limit = 0 then none else some (k.limit * 1000) } := by
  unfold Slot.refresh
  cases state : k.state with
  | empty => exact absurd state filled
  | fresh => rfl
  | stale => rfl

theorem Slot.refresh_of_empty {k : Slot} (empty : k.state = .empty) : k.refresh = k := by
  unfold Slot.refresh
  rw [empty]

end Settled

/-! ## The frame end -/

/-- The frame end of a CLEAN UPDATE with a header, of which the classification is `c`: the Acceptance Unit and the Message
Store set their parts as the reservations say. -/
theorem CleanEnd.updated {s t : State} {levels : List LineLevel} {r : Reception} {f : Frame} {first again : Bool}
    {topic : Topic} {seq : SeqNo} {payload : List Byte} {c : Option Classification} (h : CleanEnd s t levels r f)
    (seen : r.headerSeen = true) (body : f.body = .update first again topic seq payload)
    (classified : frameClassification s f.source topic seq first = c) :
    ∃ u : State, u.accept = s.accept ∧ u.store = s.store ∧ u.cont.tracker = s.cont.tracker ∧ u.line.clock = s.line.clock ∧
      t.accept.plan = Plan.empty ∧
      (∀ i : SubIndex, t.accept.table[i] =
        if (s.accept.table[i]).state = .withdrawing then SubEntry.initial else { s.accept.table[i] with engaged := false }) ∧
      t.store = (recordMark (settledTargets r.own f.source topic seq first again payload c u)).1.store ∧
      t.cont.tracker = (trackClassified u f.source topic seq c).cont.tracker ∧
      (∀ n ∈ (recordMark (settledTargets r.own f.source topic seq first again payload c u)).2, notified s t n) ∧
      ∀ P : Notice → Prop, (∀ n, P n → n.sort = 0x30) →
        (∀ n ∈ (recordMark (settledTargets r.own f.source topic seq first again payload c u)).2, ¬ P n) → unnotified s t P := by
  obtain ⟨u, accept, store, tracker, clock, tAccept, tStore, tTracker, posted, group, silent⟩ := h.accepted seen body
  have same : frameClassification u f.source topic seq first = c := by
    rw [← classified]
    unfold frameClassification
    rw [accept, tracker]
  have cont := settleUpdate_cont r.own f.source topic seq first again payload u
  rw [settleUpdate_def, same] at tAccept tStore group silent
  rw [cont, same] at tTracker
  rw [closeFrame_store] at tStore
  have marked : (recordMark (settledTargets r.own f.source topic seq first again payload c u)).1.accept = s.accept := by
    rw [recordMark_accept, settledTargets_accept, accept]
  refine ⟨u, accept, store, tracker, clock, ?_, fun i => ?_, tStore, tTracker, fun n among => posted.notified group among, silent⟩
  · rw [tAccept]
    exact closeFrame_plan _
  · rw [tAccept, closeFrame_entry, marked]

/-- Settles O22: each reserved target is settled by itself, for no other names it; then the mark is recorded and the frame
closed. -/
theorem cleanUpdateIsDeliveredToItsSlot : Obligations.CleanUpdateIsDeliveredToItsSlot := by
  refine ⟨fun s levels r cls source first again topic seq payload i k clean seen plan engaged untracked => ?_,
    fun s levels r cls source first again topic seq payload c clean seen fits tracked untracked => ?_,
    fun s c i => ⟨(qualifies_iff s c i).1, (qualifies_iff s c i).2, rfl, rfl, isGap_iff c, fun n => rfl, missingOf_of_other⟩,
    classify_spec⟩
  · have classified : frameClassification s source topic seq first = none :=
      frameClassification_eq (fun ⟨j, on, track⟩ => by
        rw [engaged j on, untracked] at track
        cases track) fun _ => rfl
    obtain ⟨t, next, ended, settled⟩ := cleanEnd_of_update clean
    obtain ⟨u, accept, store, tracker, clock, tPlan, -, tStore, tTracker, -, -⟩ := ended.updated seen rfl classified
    have plan' : u.accept.plan = _ := (congrArg AcceptanceUnit.plan accept).trans plan
    have delivers : qualifies u none i = true := by
      rw [qualifies_congr accept]
      exact (qualifies_iff s .fresh i).1.mpr untracked
    obtain ⟨j, js, some, -⟩ := filter_qualifies_cons (r := { target := .slot k, reserver := i, sharers := [] })
      List.mem_cons_self delivers
    have store' : t.store = (u.updSlot k fun x => x.deliver
        (frameContents r.own source topic seq first again payload none u.line.clock)).store := by
      rw [tStore]
      unfold settledTargets
      rw [plan', trackClassified_none, List.foldl_cons, List.foldl_nil, settleTarget_slot_delivered rfl some]
      exact congrArg (fun p : Posting => p.1.store) (recordMark_of_none (by rw [updSlot_accept, plan']))
    have slot : (u.updSlot k fun x => x.deliver
        (frameContents r.own source topic seq first again payload none u.line.clock)).store.slots[k] =
      (u.store.slots[k]).deliver (frameContents r.own source topic seq first again payload none u.line.clock) :=
      upd_getElem_self _ _ _
    refine ⟨t, next, ?_, fun j other => ?_, settled, ?_, ?_, tPlan, ?_⟩
    · rw [store', slot, store, clock]
      rfl
    · have kept : (u.updSlot k fun x => x.deliver
          (frameContents r.own source topic seq first again payload none u.line.clock)).store.slots[j] = u.store.slots[j] :=
        upd_getElem_of_ne _ _ other.symm
      rw [store', kept, store]
    · rw [store', ← store]
      rfl
    · rw [store', ← store]
      rfl
    · rw [tTracker, trackClassified_none, tracker]
  · have classified := frameClassification_eq tracked untracked
    obtain ⟨t, next, ended, settled⟩ := cleanEnd_of_update clean
    obtain ⟨u, accept, store, tracker, clock, tPlan, tTable, tStore, tTracker, notifies, silent⟩ :=
      ended.updated seen rfl classified
    have qualified : qualifies u c = qualifies s c := qualifies_congr accept
    obtain ⟨distinct, holds, -⟩ := fits
    have held : HoldsFor u.accept.plan.targets u := by
      unfold HoldsFor
      rw [accept, store]
      exact ⟨distinct, holds⟩
    have tracks := trackClassified_tracker u source topic seq c
    rw [tracker, clock] at tracks
    obtain ⟨still, fresh, moved⟩ := tracks
    have targets : u.accept.plan.targets = s.accept.plan.targets := congrArg (fun a : AcceptanceUnit => a.plan.targets) accept
    have overflow : (settledTargets r.own source topic seq first again payload c u).accept.plan.overflow =
        s.accept.plan.overflow := by
      rw [settledTargets_accept, accept]
    have marks := settledTargets_overflow (own := r.own) (source := source) (topic := topic) (seq := seq) (first := first)
      (again := again) (payload := payload) (c := c) (s := u)
    refine ⟨t, next, settled, fun x listed q target => ?_, fun x listed k target => ?_, fun q others => ?_, fun k others => ?_,
      fun all => ?_, fun none => ?_, fun q unmarked => ?_, fun q reason marked => ?_, tPlan, tTable,
      fun same => tTracker.trans (still same), fun old new room => tTracker.trans (fresh old new room),
      fun before after x known notFresh notBehind split bySource byTopic others =>
        tTracker.trans (moved before after x known notFresh notBehind split bySource byTopic others)⟩
    · rw [← targets] at listed
      have queue := settledTargets_queue (own := r.own) (source := source) (topic := topic) (seq := seq) (first := first)
        (again := again) (payload := payload) (c := c) held.1 listed target
      rw [← tStore, qualified, clock, store] at queue
      obtain ⟨reserved, released, delivered⟩ := queue
      exact ⟨fun none => ⟨released none, reserved⟩, fun i among delivers lowest =>
        ⟨reserved, delivered i among delivers lowest⟩⟩
    · rw [← targets] at listed
      have slot := settledTargets_slot (own := r.own) (source := source) (topic := topic) (seq := seq) (first := first)
        (again := again) (payload := payload) (c := c) held.1 listed target
      rw [← tStore, qualified, clock, store] at slot
      obtain ⟨delivered, refreshed, kept⟩ := slot
      refine ⟨delivered, fun none duplicate filled => ?_, fun none other => ?_⟩
      · rw [refreshed none duplicate, Slot.refresh_of_filled filled]
      · by_cases duplicate : c = some .duplicate
        · rw [refreshed none duplicate, Slot.refresh_of_empty (other.resolve_left fun differs => differs duplicate)]
        · exact kept none duplicate
    · have queue := settledTargets_queue_of_ne (own := r.own) (source := source) (topic := topic) (seq := seq) (first := first)
        (again := again) (payload := payload) (c := c) (s := u) (q := q) (targets ▸ others)
      rw [← tStore, store] at queue
      refine ⟨queue.1, queue.2.trans (Bool.eq_false_iff.mpr fun reserved => ?_)⟩
      obtain ⟨x, listed, target⟩ := (holds q).mp reserved
      exact others x listed target
    · have slot := settledTargets_slot_of_ne (own := r.own) (source := source) (topic := topic) (seq := seq) (first := first)
        (again := again) (payload := payload) (c := c) (s := u) (k := k) (targets ▸ others)
      rw [tStore, slot, store]
    · rw [tStore, settledTargets_free (by rw [targets, qualified]; exact all), store]
    · rw [tStore, settledTargets_freed held (by rw [targets, qualified]; exact none), store]
    · obtain ⟨flag, dropped, last⟩ := marks q
      obtain ⟨flag', dropped', last'⟩ := recordMark_overflow_of_other (overflow ▸ unmarked)
      rw [tStore, flag', dropped', last', flag, dropped, last, store]
      exact ⟨rfl, rfl, rfl⟩
    · obtain ⟨flag, dropped, last⟩ := marks q
      obtain ⟨flag', last', dropped', notices⟩ := recordMark_overflow_of_mark (overflow.trans marked)
      rw [notices, flag, store] at notifies silent
      rw [tStore, flag', last', dropped', dropped, store]
      refine ⟨rfl, rfl, rfl, fun unset => notifies _ ?_, fun set => silent _ ?_ ?_⟩
      · rw [unset]
        exact List.mem_cons_self
      · rintro n rfl
        rfl
      · rw [set]
        exact fun n listed => absurd listed List.not_mem_nil

end Sys2Proof.Machine
end

section
/-! Leave completion (R18, R39, R53 to R55, R83, R114, R138). -/

namespace Sys2Proof.Machine

/-! ## The parts of leave completion (R55) -/

/-- The Publication Unit at leave completion (R138). -/
theorem pubsLeft_cleared (s : State) : (pubsLeft s).pubs.items = [] ∧
    ∀ i : PubIndex, (pubsLeft s).pubs.table[i] = { s.pubs.table[i] with
      item := none, inFlight := false, writtenSinceLatch := false, rePend := false, periodicTimer := none,
      holdOff := none } := by
  obtain ⟨items, entries⟩ := stopSending_cleared s
  unfold pubsLeft
  dsimp only
  rw [setPubs_pubs]
  refine ⟨items, fun i => ?_⟩
  dsimp only
  rw [tabMap_getElem, entries i]

/-- A slot at leave completion (R114). -/
theorem slotsLeft_slot (s : State) (k : SlotNo) : (slotsLeft s).store.slots[k] =
    if (s.store.slots[k]).state = .fresh then (s.store.slots[k]).goStale .left else s.store.slots[k] := by
  unfold slotsLeft
  rw [setStore_store]
  dsimp only
  rw [tabMap_getElem]

theorem clearSession_pubs (s : State) : (clearSession s).pubs.items = [] ∧
    ∀ i : PubIndex, (clearSession s).pubs.table[i] = { s.pubs.table[i] with
      item := none, inFlight := false, writtenSinceLatch := false, rePend := false, periodicTimer := none,
      holdOff := none } := by
  have pubs : (clearSession s).pubs = (pubsLeft (releaseFrame s)).pubs := by
    unfold clearSession slotsLeft
    simp
  have left := pubsLeft_cleared (releaseFrame s)
  rw [releaseFrame_pubs] at left
  rw [pubs]
  exact left

theorem clearSession_slot (s : State) (k : SlotNo) : (clearSession s).store.slots[k] =
    if (s.store.slots[k]).state = .fresh then (s.store.slots[k]).goStale .left else s.store.slots[k] := by
  have slots : (clearSession s).store.slots = (slotsLeft (pubsLeft (releaseFrame s))).store.slots := by
    unfold clearSession
    simp
  have same : (pubsLeft (releaseFrame s)).store.slots = s.store.slots := (releaseFrame_storeKept (.refl s)).2
  have left := slotsLeft_slot (pubsLeft (releaseFrame s)) k
  rw [same] at left
  rw [slots]
  exact left

theorem clearSession_cont (s : State) : (clearSession s).cont = { s.cont with tracker := [] } := by
  unfold clearSession slotsLeft pubsLeft stopSending
  simp

theorem clearSession_epoch (s : State) : (clearSession s).epoch = s.epoch := by
  unfold clearSession slotsLeft pubsLeft stopSending
  simp

/-- The state in which the session is cleared: no recall and no request. -/
def cancelled (s : State) : State := (epochLeft (cancelRecalls s).1).1

/-- What a leave starts from: a state of the same session, its reservations still held or its frame already closed. -/
structure Leaves (s u : State) : Prop where
  record : u.session.record = s.session.record
  clock : u.line.clock = s.line.clock
  entries : ∀ i : SubIndex,
    (if (u.accept.table[i]).state = .withdrawing then SubEntry.initial else { u.accept.table[i] with engaged := false }) =
      if (s.accept.table[i]).state = .withdrawing then SubEntry.initial else { s.accept.table[i] with engaged := false }
  held : planFits s → HoldsFor u.accept.plan.targets u

/-- Leave completion (R55), whatever becomes of the port. -/
theorem leaveComplete_left {s t u : State} (h : Leaves s u) (state : ∃ p, t = (leaveComplete u).1.setPort p)
    (last : s.port.notices = [] → t.port.notices.getLast? = some { notice := .left, stamp := s.line.clock }) :
    LeftTheLine s t := by
  obtain ⟨p, rfl⟩ := state
  have session : (clearSession (cancelled u)).session = _ := clearSession_session (cancelled u)
  have line : (clearSession (cancelled u)).line = _ := clearSession_line (cancelled u)
  have accept : (clearSession (cancelled u)).accept = _ := clearSession_accept (cancelled u)
  have queues : (clearSession (cancelled u)).store.queues = _ := clearSession_queues (cancelled u)
  have cont : (clearSession (cancelled u)).cont = _ := clearSession_cont (cancelled u)
  have epoch : (clearSession (cancelled u)).epoch = _ := clearSession_epoch (cancelled u)
  have slot := clearSession_slot (cancelled u)
  obtain ⟨items, entries⟩ := clearSession_pubs (cancelled u)
  obtain ⟨plan, -, table⟩ := releaseFrame_released (s := u) (u := cancelled u) (.of_same rfl rfl)
  rw [leaveComplete_fst] at last ⊢
  refine ⟨?_, ?_, rfl, ?_, fun i => ?_, fun fits q => ?_, fun n => Vector.getElem_replicate _, ?_, fun p => ?_, ?_, ?_, ?_, items,
    fun i => ?_, fun k => ?_, last⟩
  · refine session.trans ?_
    have record : (cancelled u).session.record = s.session.record := h.record
    dsimp only
    rw [record]
  · refine line.trans ?_
    show ({ LineInterface.initial with clock := u.line.clock } : LineInterface) = _
    rw [h.clock]
  · exact (congrArg AcceptanceUnit.plan accept).trans plan
  · have entry := congrArg (fun a : AcceptanceUnit => a.table[i]) accept
    exact (entry.trans (table i)).trans (h.entries i)
  · have reserved := (releaseFrame_closed (s := cancelled u) ((h.held fits).of_same rfl)).2.1.none q
    have queue := congrArg (fun v : Vector ReceiveQueue 8 => (v[q]).reserved) queues
    exact queue.trans reserved
  · exact congrArg ContinuityUnit.tracker cont
  · have recalls : (clearSession (cancelled u)).cont.recalls = Vector.replicate 8 RecallEntry.initial :=
      congrArg ContinuityUnit.recalls cont
    have entry := congrArg (fun v : Vector RecallEntry 8 => v[p]) recalls
    exact entry.trans (Vector.getElem_replicate _)
  · exact congrArg EpochUnit.request epoch
  · exact congrArg EpochUnit.latched epoch
  · exact congrArg EpochUnit.lastSeen epoch
  · rw [setPort_pubs]
    show ((clearSession (cancelled u)).pubs.table[i]).item = none ∧ ((clearSession (cancelled u)).pubs.table[i]).inFlight = false ∧
      ((clearSession (cancelled u)).pubs.table[i]).writtenSinceLatch = false ∧
      ((clearSession (cancelled u)).pubs.table[i]).rePend = false ∧
      ((clearSession (cancelled u)).pubs.table[i]).periodicTimer = none ∧
      ((clearSession (cancelled u)).pubs.table[i]).holdOff = none
    rw [entries i]
    exact ⟨rfl, rfl, rfl, rfl, rfl, rfl⟩
  · rw [setPort_store]
    show ((clearSession (cancelled u)).store.slots[k]).state ≠ .fresh
    rw [slot k]
    split
    · exact nofun
    · assumption

/-! ## The notices of a leave -/

theorem leaveComplete_notices (u : State) : (leaveComplete u).2 =
    ((cancelRecalls u).2 ++ (if u.epoch.request = .none then [] else [.epochDone .cancelled])) ++
      ((if u.access.standing = .normal then [] else [.standingChanged .normal]) ++ [.left]) := rfl

theorem leaveComplete_last (u : State) : (leaveComplete u).2.getLast? = some .left := by
  rw [leaveComplete_notices, ← List.append_assoc, List.getLast?_concat]

theorem leaveComplete_length (u : State) : (leaveComplete u).2.length ≤ 11 := by
  have recalls : (cancelRecalls u).2.length ≤ 8 :=
    (List.length_filterMap_le _ _).trans (le_of_eq (List.length_finRange))
  rw [leaveComplete_notices]
  simp only [List.length_append, List.length_singleton]
  have epoch : (if u.epoch.request = .none then [] else [Notice.epochDone .cancelled]).length ≤ 1 := by
    split <;> simp
  have standing : (if u.access.standing = .normal then [] else [Notice.standingChanged .normal]).length ≤ 1 := by
    split <;> simp
  omega

theorem leaveComplete_sorts {u : State} {n : Notice} (posted : n ∈ (leaveComplete u).2) :
    (∃ topic, n = .recallDone topic .cancelled) ∨ n = .epochDone .cancelled ∨ n = .standingChanged .normal ∨ n = .left := by
  rw [leaveComplete_notices, List.mem_append, List.mem_append, List.mem_append] at posted
  obtain (host | epoch) | (standing | left) := posted
  · obtain ⟨p, -, made⟩ := List.mem_filterMap.mp host
    dsimp only at made
    split at made
    · cases made
      exact .inl ⟨_, rfl⟩
    · cases made
  · split at epoch
    · exact absurd epoch List.not_mem_nil
    · exact .inr (.inl (List.mem_singleton.mp epoch))
  · split at standing
    · exact absurd standing List.not_mem_nil
    · exact .inr (.inr (.inl (List.mem_singleton.mp standing)))
  · exact .inr (.inr (.inr (List.mem_singleton.mp left)))

theorem leaveComplete_posts (u : State) : (u.access.standing ≠ .normal → .standingChanged .normal ∈ (leaveComplete u).2) ∧
    (∀ p : RecallPos, (u.cont.recalls[p]).state ≠ .free → (u.cont.recalls[p]).origin = .host →
      .recallDone (u.cont.recalls[p]).topic .cancelled ∈ (leaveComplete u).2) ∧
    (u.epoch.request ≠ .none → .epochDone .cancelled ∈ (leaveComplete u).2) := by
  rw [leaveComplete_notices]
  refine ⟨fun changed => ?_, fun p busy host => ?_, fun requested => ?_⟩
  · rw [if_neg changed]
    exact List.mem_append_right _ List.mem_cons_self
  · refine List.mem_append_left _ (List.mem_append_left _ (List.mem_filterMap.mpr ⟨p, List.mem_finRange p, ?_⟩))
    exact if_pos ⟨busy, host⟩
  · rw [if_neg requested]
    exact List.mem_append_left _ (List.mem_append_right _ List.mem_cons_self)

/-- The notices of the leave stand behind those of the end before it. -/
theorem posted_of_leave {s t : State} {ns : List Notice} {u : State} (port : t.port.notices =
      (postAll s (ns ++ (leaveComplete u).2)).port.notices) (few : ns.length ≤ 21) (empty : s.port.notices = []) :
    t.port.notices = (ns ++ (leaveComplete u).2).map fun n => { notice := n, stamp := s.line.clock } := by
  have length := leaveComplete_length u
  rw [port]
  refine postAll_notices_of_empty empty ?_
  rw [List.length_append]
  omega

theorem last_of_leave {s t : State} {ns : List Notice} {u : State} (port : t.port.notices =
      (postAll s (ns ++ (leaveComplete u).2)).port.notices) (few : ns.length ≤ 21) (empty : s.port.notices = []) :
    t.port.notices.getLast? = some { notice := .left, stamp := s.line.clock } := by
  rw [posted_of_leave port few empty, List.getLast?_map, List.getLast?_append, leaveComplete_last]
  rfl

theorem notified_of_leave {s t : State} {ns : List Notice} {u : State} {n : Notice} (port : t.port.notices =
      (postAll s (ns ++ (leaveComplete u).2)).port.notices) (few : ns.length ≤ 21)
    (posted : n ∈ ns ∨ n ∈ (leaveComplete u).2) : notified s t n := fun empty => by
  rw [posted_of_leave port few empty]
  exact List.mem_map_of_mem (List.mem_append.mpr posted)

theorem unnotified_of_leave {s t : State} {ns : List Notice} {u : State} {P : Notice → Prop} (port : t.port.notices =
      (postAll s (ns ++ (leaveComplete u).2)).port.notices) (few : ns.length ≤ 21) (silent : ∀ n ∈ ns, ¬ P n)
    (silent' : ∀ n ∈ (leaveComplete u).2, ¬ P n) : unnotified s t P := fun empty x queued => by
  rw [posted_of_leave port few empty] at queued
  obtain ⟨n, listed, rfl⟩ := List.mem_map.mp queued
  exact (List.mem_append.mp listed).elim (silent n) (silent' n)

end Sys2Proof.Machine
end

section
/-! LEAVE, and the leave that an attempt's end completes (R53, R54). -/

namespace Sys2Proof.Machine

/-! ## A leave that completes -/

theorem leaveComplete_clock (u : State) : (leaveComplete u).1.line.clock = u.line.clock := by
  have line : (clearSession (cancelled u)).line = _ := clearSession_line (cancelled u)
  rw [leaveComplete_fst]
  exact (congrArg LineInterface.clock line :)

/-- The leave with its notices posted: nothing but the port is not what leave completion says. -/
theorem leaveComplete_done (u : State) :
    (leaveComplete u).done = (leaveComplete u).1.setPort (postAll u (leaveComplete u).2).port :=
  postAll_of_port (leaveComplete_port u) (leaveComplete_clock u) _

/-- In OFFLINE no booking stands. -/
theorem settleBooking_of_left (u : State) (p : HostPort) :
    settleBooking ((leaveComplete u).1.setPort p) = (leaveComplete u).1.setPort p := by
  have offline : (leaveComplete u).1.session.state = .offline :=
    congrArg SessionController.state (clearSession_session (cancelled u))
  have without : permission ((leaveComplete u).1.setPort p) = false := by
    unfold permission
    rw [setPort_session, offline]
    rfl
  have access : ((leaveComplete u).1.setPort p).access = AccessController.initial := rfl
  generalize (leaveComplete u).1.setPort p = v at without access
  have unbooked : { v.access with booking := none } = v.access := by
    rw [access]
    rfl
  rw [settleBooking_no_permission v without, unbooked]
  rfl

/-! ## LEAVE (R53) -/

theorem exec_leave_of_executes {s : State} {args : List Byte} (h : Executes s 0x03 args) :
    exec (.leave args) s = .next (answered (leaveBody args s).1 (leaveBody args s).2) :=
  congrArg Host.Outcome.next (takeCommand_executes (leaveBody args) h)

theorem leaveBody_of_online {s : State} (online : s.session.state = .listening ∨ s.session.state = .claiming ∨
    s.session.state = .member ∨ s.session.state = .refused) : leaveBody [] s = (leaveNow s, plain .ok) := by
  obtain state | state | state | state := online <;> simp only [leaveBody, state]

theorem leaveBody_of_leaving {s : State} (leaving : s.session.state = .leaving) : leaveBody [] s = (s, plain .ok) := by
  simp only [leaveBody, leaving]

theorem leaveBody_of_offline {s : State} (offline : s.session.state = .offline) :
    leaveBody [] s = refuseWith s .wrongState := by
  simp only [leaveBody, offline]

theorem leaveNow_of_landed {s : State} (landed : s.access.inFlight = none) : leaveNow s = (leaveComplete s).done := by
  unfold leaveNow
  rw [landed]
  rfl

/-- With a frame of its own in flight the station goes LEAVING, and its booking goes (R27, R53). -/
theorem leaveNow_of_flying {s : State} (flying : s.access.inFlight.isSome = true) : leaveNow s = { s with
    session := { s.session with state := .leaving, listenWindow := none, presenceTimer := none },
    access := { s.access with booking := none } } := by
  unfold leaveNow
  rw [if_pos flying]
  exact settleBooking_no_permission _ rfl

theorem Leaves.refl (s : State) : Leaves s s := ⟨rfl, rfl, fun _ => rfl, fun ⟨distinct, holds, _⟩ => ⟨distinct, holds⟩⟩

/-- The pool and the queues at leave completion (R83). -/
theorem leaveComplete_store (s : State) :
    (planFits s → (leaveComplete s).1.store.free = s.store.free + s.store.reservedCells) ∧
    ∀ q : QueueNo, SameOverflow s.store.queues[q] (leaveComplete s).1.store.queues[q] ∧
      ((leaveComplete s).1.store.queues[q]).records = (s.store.queues[q]).records := by
  have free : (clearSession (cancelled s)).store.free = _ := clearSession_free (cancelled s)
  have queues : (clearSession (cancelled s)).store.queues = _ := clearSession_queues (cancelled s)
  have kept : StoreKept s (releaseFrame (cancelled s)) := releaseFrame_storeKept (.of_same rfl rfl)
  rw [leaveComplete_fst]
  refine ⟨fun fits => ?_, fun q => ?_⟩
  · obtain ⟨distinct, holds, -⟩ := fits
    have held : HoldsFor (cancelled s).accept.plan.targets (cancelled s) := ⟨distinct, holds⟩
    obtain ⟨plan, none, pool⟩ := releaseFrame_closed held
    obtain ⟨-, -, freed⟩ := cellsFreed_of_count kept plan none pool.cells
    exact free.trans freed
  · have queue := congrArg (fun v : Vector ReceiveQueue 8 => v[q]) queues
    have same := kept.1 q
    generalize (releaseFrame (cancelled s)).store.queues[q] = x at queue same
    show SameOverflow _ (clearSession (cancelled s)).store.queues[q] ∧ ((clearSession (cancelled s)).store.queues[q]).records = _
    rw [show (clearSession (cancelled s)).store.queues[q] = x from queue]
    exact ⟨⟨(congrArg ReceiveQueue.overflow same :), (congrArg ReceiveQueue.dropped same :),
      (congrArg ReceiveQueue.lastReason same :)⟩, (congrArg ReceiveQueue.records same :)⟩

/-- The publications at leave completion (R138). -/
theorem leaveComplete_entry (s : State) (i : PubIndex) : (leaveComplete s).1.pubs.table[i] = { s.pubs.table[i] with
    item := none, inFlight := false, writtenSinceLatch := false, rePend := false, periodicTimer := none, holdOff := none } :=
  (clearSession_pubs (cancelled s)).2 i

theorem leaveComplete_slot (s : State) (k : SlotNo) : (leaveComplete s).1.store.slots[k] =
    if (s.store.slots[k]).state = .fresh then (s.store.slots[k]).goStale .left else s.store.slots[k] :=
  clearSession_slot (cancelled s) k

end Sys2Proof.Machine
end

section
/-! LEAVE and the end of an attempt in LEAVING (R53 to R55). -/

namespace Sys2Proof.Machine

/-! ## LEAVE with nothing in flight (R53) -/

/-- The port behind a leave that starts from `s`. -/
theorem leaveDone_notices (s : State) :
    (leaveComplete s).done.port.notices = (postAll s ([] ++ (leaveComplete s).2)).port.notices := by
  rw [leaveComplete_done]
  rfl

theorem answered_setPort (v : State) (p : HostPort) (r : Response) :
    answered (v.setPort p) r = v.setPort { p with state := .responseWaiting r } := rfl

theorem answered_notices (v : State) (r : Response) : (answered v r).port.notices = v.port.notices := rfl

theorem answered_portState (v : State) (r : Response) : (answered v r).port.state = .responseWaiting r := rfl

/-- LEAVE with nothing in flight: leave completion, its notices, and the response. -/
theorem leave_landed {s : State} (executes : Executes s 0x03 []) (online : s.session.state = .listening ∨
      s.session.state = .claiming ∨ s.session.state = .member ∨ s.session.state = .refused)
    (landed : s.access.inFlight = none) :
    ∃ t p, exec (.leave []) s = .next t ∧ t = (leaveComplete s).1.setPort p ∧ t.port.state = .responseWaiting ⟨.ok, []⟩ ∧
      LeftTheLine s t ∧ ∀ n ∈ (leaveComplete s).2, notified s t n := by
  have next := exec_leave_of_executes executes
  rw [leaveBody_of_online online, leaveNow_of_landed landed] at next
  have notices := (answered_notices (leaveComplete s).done ⟨.ok, []⟩).trans (leaveDone_notices s)
  have state : answered (leaveComplete s).done ⟨.ok, []⟩ = _ :=
    (congrArg (fun v => answered v ⟨.ok, []⟩) (leaveComplete_done s)).trans (answered_setPort _ _ _)
  exact ⟨_, _, next, state, answered_portState _ _, leaveComplete_left (.refl s) ⟨_, state⟩
    (last_of_leave notices (Nat.zero_le _)), fun n listed => notified_of_leave notices (Nat.zero_le _) (.inr listed)⟩

/-! ## A leave behind the end of an attempt (R54) -/

/-- The leave with its notices behind others. -/
theorem settleBooking_leave {s v : State} (ns : List Notice) (port : v.port = s.port) (clock : v.line.clock = s.line.clock) :
    settleBooking (postAll (leaveComplete v).1 ns) = (leaveComplete v).1.setPort (postAll s ns).port := by
  rw [postAll_of_port (s := s) ((leaveComplete_port v).trans port) ((leaveComplete_clock v).trans clock), settleBooking_of_left]

/-- What stands when the leave from `v` has completed behind the notices `ns` of an attempt's end. -/
theorem left_behind {s v : State} {ns : List Notice} (starts : Leaves s v) (few : ns.length ≤ 21) :
    ∃ t, t = (leaveComplete v).1.setPort (postAll s (ns ++ (leaveComplete v).2)).port ∧ LeftTheLine s t ∧
      (∀ n ∈ ns, notified s t n) ∧
      (∀ P : Notice → Prop, (∀ n ∈ ns, ¬ P n) → (∀ n ∈ (leaveComplete v).2, ¬ P n) → unnotified s t P) ∧
      ∀ i : PubIndex, t.pubs.table[i] = { v.pubs.table[i] with
        item := none, inFlight := false, writtenSinceLatch := false, rePend := false, periodicTimer := none,
        holdOff := none } := by
  have notices : ((leaveComplete v).1.setPort (postAll s (ns ++ (leaveComplete v).2)).port).port.notices =
      (postAll s (ns ++ (leaveComplete v).2)).port.notices := by rw [setPort_port]
  refine ⟨_, rfl, leaveComplete_left starts ⟨_, rfl⟩ (last_of_leave notices few),
    fun n listed => notified_of_leave notices few (.inl listed), fun P => unnotified_of_leave notices few, fun i => ?_⟩
  rw [setPort_pubs]
  exact leaveComplete_entry v i

/-! ## JAM_END in LEAVING (R54, R128) -/

section Jam

variable {s : State} {f : Flight}

theorem abandon_claim_of_leaving (leaving : s.session.state = .leaving) : abandon .claim s =
    (removeItem s .claim, [.transmitAbandoned .claim (ownNumber s).val]) := by
  have state : ¬ (removeItem s .claim).session.state = .claiming := fun claiming => by
    have both := leaving.symm.trans claiming
    cases both
  unfold abandon ownerAbandoned Posting.andThen
  dsimp only
  rw [if_neg state]
  rfl

/-- The end of an attempt in LEAVING changes neither session nor clock nor port. -/
theorem jamOutcome_of_leaving (leaving : s.session.state = .leaving) :
    (jamOutcome f s).1.session = s.session ∧ (jamOutcome f s).1.line.clock = s.line.clock ∧
      (jamOutcome f s).1.port = s.port := by
  by_cases many : 16 ≤ attemptsOf s f.kind
  · rw [jamOutcome_of_many many]
    by_cases claim : f.kind = .claim
    · rw [claim, abandon_claim_of_leaving (s := jamDone s) leaving]
      exact ⟨rfl, rfl, rfl⟩
    · obtain ⟨table, cont, epoch, abandoned⟩ := abandon_spec claim (jamDone s)
      rw [abandoned]
      exact ⟨rfl, rfl, rfl⟩
  · rw [jamOutcome_of_few (Nat.not_le.mp many), ownerCollided_eq]
    exact ⟨rfl, rfl, rfl⟩

/-- The last of a publication that is being withdrawn frees it. -/
theorem jamOutcome_withdrawn {i : PubIndex} (leaving : s.session.state = .leaving) (kind : f.kind = .update i)
    (withdrawing : (s.pubs.table[i]).state = .withdrawing) : (jamOutcome f s).1.pubs.table[i] = PubEntry.initial := by
  by_cases many : 16 ≤ attemptsOf s f.kind
  · rw [jamOutcome_of_many many, kind, abandon_update]
    exact (updPub_self (removeItem (jamDone s) (.update i)) i _).trans (if_pos withdrawing)
  · have collided : ownerCollided (.update i) (jamDone s) = updateCollided (removeItem (jamDone s) (.update i)) i :=
      congrArg (fun u => updateCollided u i) (if_pos leaving)
    rw [jamOutcome_of_few (Nat.not_le.mp many), kind, collided,
      updateCollided_of_withdrawing (s := removeItem (jamDone s) (.update i)) withdrawing]
    exact updPub_self (removeItem (jamDone s) (.update i)) i _

/-- The notices of the sixteenth collision in LEAVING. -/
theorem abandon_notices (leaving : s.session.state = .leaving) :
    (abandon f.kind s).2.length ≤ 2 ∧
    (∀ topic, f.kind = .recallItem topic → .transmitAbandoned .recallFrame topic.toNat ∈ (abandon f.kind s).2) ∧
    (f.kind = .claim → (abandon f.kind s).2 = [.transmitAbandoned .claim (ownNumber s).val]) ∧
    (f.kind = .epoch → .epochDone .abandoned ∈ (abandon f.kind s).2) := by
  cases f.kind with
  | claim =>
    rw [abandon_claim_of_leaving leaving]
    exact ⟨Nat.le_succ _, nofun, fun _ => rfl, nofun⟩
  | presence d => exact ⟨Nat.le_succ _, nofun, nofun, nofun⟩
  | epoch => exact ⟨le_rfl, nofun, nofun, fun _ => List.mem_cons_of_mem _ List.mem_cons_self⟩
  | update i => exact ⟨Nat.le_succ _, nofun, nofun, nofun⟩
  | recallItem topic =>
    cases listed : recallAt s topic with
    | none =>
      rw [abandon_recall_of_unlisted listed]
      exact ⟨Nat.le_succ _, fun _ same => by cases same; exact List.mem_cons_self, nofun, nofun⟩
    | some p =>
      rw [abandon_recall_of_listed listed]
      exact ⟨le_rfl, fun _ same => by cases same; exact List.mem_cons_self, nofun, nofun⟩

/-- JAM_END in LEAVING completes the leave. -/
theorem jamEnd_leaves {n : Nat} (running : s.held = false) (jamming : s.line.send = .jamming n)
    (flying : s.access.inFlight = some f) (leaving : s.session.state = .leaving) :
    exec .jamEnd s = .next ((leaveComplete (jamOutcome f s).1).1.setPort
      (postAll s ((jamOutcome f s).2 ++ (leaveComplete (jamOutcome f s).1).2)).port) := by
  obtain ⟨session, clock, port⟩ := jamOutcome_of_leaving (f := f) leaving
  have finishes : finishLeaving (jamOutcome f s).1 = leaveComplete (jamOutcome f s).1 := if_pos (by rw [session]; exact leaving)
  rw [exec_jamEnd_of_flight running jamming flying, done_def, andThen_fst, andThen_snd, finishes, settleBooking_leave _ port clock]

theorem jamOutcome_left (leaving : s.session.state = .leaving) : Leaves s (jamOutcome f s).1 := by
  obtain ⟨session, clock, -⟩ := jamOutcome_of_leaving (f := f) leaving
  obtain ⟨owners, -⟩ := jamOutcome_leaves f s
  have accept := owners.accept
  have store := owners.store
  refine ⟨by rw [session], clock, fun i => by rw [accept], fun ⟨distinct, holds, _⟩ => ?_⟩
  rw [accept]
  unfold HoldsFor
  rw [store]
  exact ⟨distinct, holds⟩

end Jam

/-! ## FRAME_END of the own echo in LEAVING (R54) -/

theorem impliedHeader_unreserved (levels : List LineLevel) (s : State) (r : Reception) :
    Unreserved s (impliedHeader levels s r).1 := by
  obtain ⟨-, implied⟩ | ⟨-, -, rx, implied⟩ | ⟨-, -, implied⟩ := impliedHeader_cases levels s r
  · rw [implied]
    exact .refl s
  · rw [implied]
    exact headerEvent_unreserved s r rx
  · rw [implied]
    exact .refl s

/-- The end of a CLEAN frame with a header closes the frame (R76, R82, R84). -/
theorem acceptanceAtFrame_entry (own : Bool) (f : Frame) (s : State) (i : SubIndex) :
    (acceptanceAtFrame own true f s).1.accept.table[i] =
      if (s.accept.table[i]).state = .withdrawing then SubEntry.initial else { s.accept.table[i] with engaged := false } := by
  by_cases update : ∃ first again topic seq payload, f.body = .update first again topic seq payload
  · obtain ⟨first, again, topic, seq, payload, body⟩ := update
    have acts : acceptanceAtFrame own true f s = settleUpdate own f.source topic seq first again payload s := by
      simp only [acceptanceAtFrame, body, if_true]
    rw [acts, settleUpdate_def, closeFrame_entry, recordMark_accept, settledTargets_accept]
  · have acts : acceptanceAtFrame own true f s = (releaseFrame s, []) := by
      unfold acceptanceAtFrame
      rw [if_pos rfl]
      split
      · rename_i body
        exact absurd ⟨_, _, _, _, _, body⟩ update
      all_goals rfl
    rw [acts]
    exact (releaseFrame_released (.refl s)).2.2 i

/-- Closing the frame a second time changes nothing. -/
theorem closedEntry_twice (e : SubEntry) :
    let e' := if e.state = .withdrawing then SubEntry.initial else { e with engaged := false }
    (if e'.state = .withdrawing then SubEntry.initial else { e' with engaged := false }) = e' := by
  dsimp only
  by_cases withdrawing : e.state = .withdrawing
  · rw [if_pos withdrawing]
    rfl
  · rw [if_neg withdrawing]
    exact if_neg withdrawing

section Echo

variable {s : State} {levels : List LineLevel} {r : Reception} {x : Flight} {f : Frame}

/-- The state that the blocks leave at the end of a CLEAN frame, before the booking is settled. -/
def cleaned (s : State) (levels : List LineLevel) (r : Reception) (f : Frame) : State :=
  cleanFrame r.own (impliedHeader levels s r).2 f (framed s levels r)

theorem settleBooking_cleaned : CleanEnd s (settleBooking (cleaned s levels r f)) levels r f :=
  cleanFrame_cleanEnd s levels r f

/-- Whatever the header, the frame's entries are released, at its end or at the end of the leave. -/
theorem cleaned_entry (i : SubIndex) : let e := (cleaned s levels r f).accept.table[i]
    (if e.state = .withdrawing then SubEntry.initial else { e with engaged := false }) =
      if (s.accept.table[i]).state = .withdrawing then SubEntry.initial else { s.accept.table[i] with engaged := false } := by
  have ended := (settleBooking_cleaned (s := s) (levels := levels) (r := r) (f := f)).accept
  have accept : (cleaned s levels r f).accept = (afterAcceptance r.own (impliedHeader levels s r).2 f (framed s levels r)).accept := by
    have same : (settleBooking (cleaned s levels r f)).accept = (cleaned s levels r f).accept := by
      rw [settleBooking_eq, setAccess_accept]
    exact same.symm.trans (ended.trans (afterBlocks_accept _ _ _ _))
  have implied := closedEntry_congr ((impliedHeader_unreserved levels s r).table i)
  have framedAccept : (framed s levels r).accept = (impliedHeader levels s r).1.accept := by rw [framed_eq]
  have before : (afterRoster r.own f (framed s levels r)).accept = (impliedHeader levels s r).1.accept :=
    (afterRoster_accept _ _ _).trans framedAccept
  dsimp only
  rw [accept, ← implied]
  unfold afterAcceptance
  cases (impliedHeader levels s r).2 with
  | true =>
    rw [acceptanceAtFrame_entry, before]
    exact closedEntry_twice _
  | false =>
    have idle : (acceptanceAtFrame r.own false f (afterRoster r.own f (framed s levels r))).1 =
        afterRoster r.own f (framed s levels r) := rfl
    rw [idle, before]

/-- Under the plan invariant the leave gives back what the frame still holds. -/
theorem cleaned_held (receiving : s.line.receive = .inFrame r) (fits : planFits s) :
    HoldsFor (cleaned s levels r f).accept.plan.targets (cleaned s levels r f) := by
  have held : HoldsFor (framed s levels r).accept.plan.targets (framed s levels r) ∧
      ((impliedHeader levels s r).2 = false → (framed s levels r).accept.plan = Plan.empty) := by
    rw [framed_eq]
    obtain ⟨seen, implied⟩ | ⟨unseen, -, rx, implied⟩ | ⟨unseen, -, implied⟩ := impliedHeader_cases levels s r
    · rw [implied]
      exact ⟨⟨fits.1, fits.2.1⟩, nofun⟩
    · rw [implied]
      obtain ⟨-, none⟩ := fits.holdsNone receiving unseen
      obtain ⟨held, -⟩ := headerEvent_reserves r rx none rfl
      exact ⟨held.of_same rfl, nofun⟩
    · rw [implied]
      obtain ⟨plan, none⟩ := fits.holdsNone receiving unseen
      refine ⟨?_, fun _ => plan⟩
      rw [plan]
      exact none.of_same rfl
  obtain ⟨whole, unseen⟩ := held
  have acts : actOnOutcome r.own (impliedHeader levels s r).2 (.clean f) (framed s levels r) = cleaned s levels r f := by
    unfold actOnOutcome cleaned
    rfl
  have closed := actOnOutcome_closed (own := r.own) (headerSeen := (impliedHeader levels s r).2) (o := .clean f) whole unseen
  rw [acts] at closed
  obtain ⟨plan, none, -⟩ := closed
  rw [plan]
  exact none

/-- What the blocks leave in LEAVING, where the owner alone acts on an own frame. -/
theorem sessionAtFrame_of_leaving (leaving : s.session.state = .leaving) :
    sessionAtFrame true f (accessAtFrame true f (framed s levels r)).1 = ((accessAtFrame true f (framed s levels r)).1, []) := by
  have state : (accessAtFrame true f (framed s levels r)).1.session.state = .leaving := by
    rw [accessAtFrame_session, framed_eq]
    exact leaving
  unfold sessionAtFrame ownCleanEnd
  rw [if_pos rfl, state]

theorem afterSession_of_leaving (leaving : s.session.state = .leaving) :
    afterSession true f (framed s levels r) = (accessAtFrame true f (framed s levels r)).1 := by
  unfold afterSession
  rw [sessionAtFrame_of_leaving leaving]

/-- The booking apart, the blocks leave what stands after a CLEAN frame. -/
theorem cleaned_parts : (cleaned s levels r f).session = (afterSession r.own f (framed s levels r)).session ∧
    (cleaned s levels r f).line.clock = s.line.clock ∧
    (settleBooking (cleaned s levels r f)).port = (cleaned s levels r f).port ∧
    (settleBooking (cleaned s levels r f)).pubs = (cleaned s levels r f).pubs := by
  have ended := settleBooking_cleaned (s := s) (levels := levels) (r := r) (f := f)
  have line := ended.line
  have session := ended.session.trans (afterBlocks_session _ _ _ _)
  refine ⟨?_, ?_, settleBooking_port _, ?_⟩
  · rw [← session, settleBooking_eq, setAccess_session]
  · rw [← acted_clock s levels r f, ← line, settleBooking_eq, setAccess_line]
  · rw [settleBooking_eq, setAccess_pubs]

/-- The end of the own echo in LEAVING: the blocks have acted, and the leave completes (R54). -/
theorem EchoEnd.leaves (h : EchoEnd s levels r x f) (leaving : s.session.state = .leaving) :
    ∃ ns, Interleaved (frameNotices true (impliedHeader levels s r).2 f (framed s levels r)) ns ∧ ns.length ≤ 19 ∧
      Leaves s (cleaned s levels r f) ∧
      Machine.exec (.frameEnd levels) s = .next ((leaveComplete (cleaned s levels r f)).1.setPort
        (postAll s (ns ++ (leaveComplete (cleaned s levels r f)).2)).port) := by
  obtain ⟨session, clock, settled, -⟩ := cleaned_parts (s := s) (levels := levels) (r := r) (f := f)
  obtain ⟨ns, port, ordered⟩ := (settleBooking_cleaned (s := s) (levels := levels) (r := r) (f := f)).posted.posted
  have few : ns.length ≤ 19 := ordered.1.length_eq.trans_le (frameNotices_length _ _ _ _)
  rw [h.own] at session ordered
  rw [afterSession_of_leaving leaving, accessAtFrame_session, framed_eq] at session
  have next := h.exec
  rw [endFrame_of_outcome h.outcome] at next
  have finishes : ∀ u : State, u.session.state = .leaving → leaveAfterFrame r.own (.clean f) u = (leaveComplete u).done :=
    fun u state => by
      rw [h.own]
      exact congrArg Posting.done (if_pos state)
  have left : leaveAfterFrame r.own (.clean f) (cleanFrame r.own (impliedHeader levels s r).2 f (framed s levels r)) =
      (leaveComplete (cleaned s levels r f)).done := finishes (cleaned s levels r f) (by rw [session]; exact leaving)
  have behind : (postAll (cleaned s levels r f) (leaveComplete (cleaned s levels r f)).2).port =
      (postAll s (ns ++ (leaveComplete (cleaned s levels r f)).2)).port := by
    rw [postAll_append, postAll_of_port (s := postAll s ns) (settled.symm.trans port) (by rw [postAll_line]; exact clock),
      setPort_port]
  rw [left, leaveComplete_done, settleBooking_of_left, behind] at next
  exact ⟨ns, ordered, few, ⟨by rw [session], clock, cleaned_entry, cleaned_held h.receiving⟩, next⟩

/-- Without an entry into MEMBER no JOINED is posted. -/
theorem echo_lacks_joined {ns : List Notice}
    (ordered : Interleaved (frameNotices true (impliedHeader levels s r).2 f (framed s levels r)) ns)
    (leaving : s.session.state = .leaving) : ∀ n ∈ ns, ¬ n = .joined := by
  have sort : ∀ n : Notice, n = .joined → n.sort ∈ [(0x01 : Byte)] := by
    rintro n rfl
    exact List.mem_singleton.mpr rfl
  have lacks := frameNotices_lack (P := fun n => n = .joined) (own := true) (headerSeen := (impliedHeader levels s r).2) (f := f)
    (s := framed s levels r) ((accessAtFrame_among _ _ _).lacks sort (by decide))
    (by rw [sessionAtFrame_of_leaving leaving]; exact fun n listed => absurd listed List.not_mem_nil)
    ((rosterAtFrame_among _ _ _).lacks sort (by decide)) ((acceptanceAtFrame_among _ _ _ _).lacks sort (by decide))
    ((publicationAtFrame_among _ _ _).lacks sort (by decide)) ((continuityAtFrame_among _ _ _).lacks sort (by decide))
    ((epochAtFrame_among _ _ _).lacks sort (by decide))
  intro n listed
  obtain ⟨g, group, posted⟩ := List.mem_flatten.mp (ordered.1.subset listed)
  exact lacks g group n posted

theorem echo_epoch_group (headerSeen : Bool) (f : Frame) (s : State) :
    (epochAtFrame true f (continuityAtFrame true f (publicationAtFrame true f (afterAcceptance true headerSeen f s)).1).1).2 ∈
      frameNotices true headerSeen f s := by
  unfold frameNotices
  simp only [List.mem_cons, true_or, or_true]

theorem epochAtFrame_own_done {e : SeqNo} (s : State) (body : f.body = .epoch e) :
    .epochDone (.sent e f.source) ∈ (epochAtFrame true f s).2 := by
  obtain ⟨-, -, -, -, done⟩ := epochAtFrame_own s body
  exact done

/-- The publication of the UPDATE that ended in LEAVING (R127). -/
theorem cleaned_publication (h : EchoEnd s levels r x f) (leaving : s.session.state = .leaving) {i : PubIndex}
    (sort : f.body.kind = x.kind.frameKind) (kind : x.kind = .update i) :
    ((s.pubs.table[i]).state = .withdrawing → (cleaned s levels r f).pubs.table[i] = PubEntry.initial) ∧
    ((s.pubs.table[i]).state = .active → x.latchedRepeat = false →
      ((cleaned s levels r f).pubs.table[i]).nextSeq = (s.pubs.table[i]).nextSeq + 1 ∧
      ((cleaned s levels r f).pubs.table[i]).firstArmed = false) := by
  obtain ⟨-, -, -, settled⟩ := cleaned_parts (s := s) (levels := levels) (r := r) (f := f)
  obtain ⟨L, pubs, session, -, access⟩ := accessAtFrame_echo_eq (levels := levels) (r := r) (f := f) h.flying
  obtain ⟨z, -, zPubs, -, -, -, tPubs, -⟩ := (settleBooking_cleaned (s := s) (levels := levels) (r := r) (f := f)).behindOwn h.own
  obtain ⟨first, again, topic, seq, payload, body⟩ := update_of_kind sort kind
  rw [afterSession_of_leaving leaving, access, ownerClean_of_update kind] at zPubs
  rw [settled, continuityAtFrame_of_update z body] at tPubs
  have table := (answerRecall_keeps z topic).1
  rw [← tPubs, zPubs] at table
  have entry : L.pubs.table[i] = s.pubs.table[i] := by
    rw [pubs]
    rfl
  have outside : ¬ L.session.state = .member := by
    rw [session, leaving]
    exact nofun
  rw [table, ← entry]
  refine ⟨fun withdrawing => ?_, fun active first => ?_⟩
  · rw [updateSent_of_withdrawing withdrawing]
    exact updPub_self L i _
  · have once : updateSent L i x.latchedRepeat = sentOnce L i x.latchedRepeat := by
      rw [updateSent_eq_if, if_neg (by rw [active]; exact nofun)]
      exact if_neg fun both => outside both.2
    rw [once, sentOnce_entry, first]
    exact ⟨rfl, rfl⟩

end Echo

/-- Settles O48: a leave that completes is `leaveComplete`, at once or behind the end of the attempt, and whatever that end has
changed of the frame's reservations, the leave gives back what is left of them. -/
theorem leaveReturnsToOffline : Obligations.LeaveReturnsToOffline := by
  refine ⟨fun s executes => ⟨fun online landed => ?_, fun state flying => ?_, fun leaving => ?_, fun offline => ?_⟩,
    fun s x f echo leaving => ?_, fun s n f running jamming flying leaving => ?_⟩
  · obtain ⟨t, p, next, state, answers, left, posted⟩ := leave_landed executes online landed
    obtain ⟨standing, recalls, request⟩ := leaveComplete_posts s
    obtain ⟨free, queues⟩ := leaveComplete_store s
    have entries := leaveComplete_entry s
    have slots := leaveComplete_slot s
    have epoch : (leaveComplete s).1.epoch = (cancelled s).epoch := clearSession_epoch (cancelled s)
    have store : t.store = (leaveComplete s).1.store := by
      rw [state, setPort_store]
    have pubs : t.pubs = (leaveComplete s).1.pubs := by
      rw [state, setPort_pubs]
    have unit : t.epoch = (cancelled s).epoch := by
      rw [state, setPort_epoch, epoch]
    have gone := left
    obtain ⟨session, line, access, plan, table, -, roster, tracker, recallList, none, -, lastSeen, items, -, -, last⟩ := gone
    rw [← store] at free queues slots
    rw [← pubs] at entries
    refine ⟨t, next, answers, left, free, by rw [line]; rfl, by rw [line]; rfl, fun i => ?_, entries, fun q => (queues q).1,
      fun changed => posted _ (standing changed), fun p busy host => posted _ (recalls p busy host),
      fun requested => posted _ (request requested), session, by rw [line]; rfl, by rw [line]; rfl, by rw [line]; rfl,
      by rw [line], access, roster, tracker, recallList, none, lastSeen, by rw [unit]; rfl, by rw [unit]; rfl, items, plan,
      fun i => ?_, fun q => (queues q).2, fun k fresh => ?_, fun k other => ?_, last⟩
    · rw [table i]
      split
      · exact ⟨rfl, nofun⟩
      · exact ⟨rfl, by assumption⟩
    · rw [entries i]
      exact ⟨rfl, rfl, rfl, rfl⟩
    · rw [slots k, if_pos fresh]
      exact ⟨rfl, rfl, rfl⟩
    · rw [slots k, if_neg other]
  · have next := exec_leave_of_executes executes
    rw [leaveBody_of_online (state.elim (.inr ∘ .inl) (.inr ∘ .inr ∘ .inl)), leaveNow_of_flying flying] at next
    exact ⟨_, next, rfl⟩
  · rw [exec_leave_of_executes executes, leaveBody_of_leaving leaving]
    rfl
  · rw [exec_leave_of_executes executes, leaveBody_of_offline offline]
    rfl
  · have sent := echo
    obtain ⟨-, -, -, -, -, -, sort, -⟩ := sent
    have ended := echo.echo
    obtain ⟨ns, ordered, few, starts, next⟩ := ended.leaves leaving
    obtain ⟨t, state, left, posted, silent, entries⟩ := left_behind starts (few.trans (by decide))
    rw [← state] at next
    refine ⟨t, next, left, silent _ (echo_lacks_joined ordered leaving) ?_,
      fun e body => posted _ ((ordered.2 _ (echo_epoch_group _ f _)).subset (epochAtFrame_own_done _ body)), fun i kind => ?_⟩
    · rintro n listed rfl
      obtain ⟨topic, same⟩ | same | same | same := leaveComplete_sorts listed <;> cases same
    · obtain ⟨withdrawn, counted⟩ := cleaned_publication ended leaving sort kind
      rw [entries i]
      generalize (cleaned s (wholeFrame (withCheck x.covered)) ownReception f).pubs.table[i] = e at withdrawn counted
      refine ⟨fun withdrawing => ?_, counted⟩
      rw [withdrawn withdrawing]
      rfl
  · have next := jamEnd_leaves running jamming flying leaving
    obtain ⟨few, recall', claim, epoch⟩ := abandon_notices (s := jamDone s) (f := f) leaving
    have short : (jamOutcome f s).2.length ≤ 21 := by
      by_cases many : 16 ≤ attemptsOf s f.kind
      · rw [jamOutcome_of_many many]
        omega
      · rw [jamOutcome_of_few (Nat.not_le.mp many)]
        exact Nat.zero_le _
    obtain ⟨t, state, left, posted, silent, entries⟩ := left_behind (jamOutcome_left (f := f) leaving) short
    rw [← state] at next
    refine ⟨t, next, left, fun i kind withdrawing => ?_, fun many => ?_, fun few => ?_⟩
    · rw [entries i, jamOutcome_withdrawn leaving kind withdrawing]
      rfl
    · have outcome := congrArg Prod.snd (jamOutcome_of_many many)
      rw [← outcome] at recall' claim epoch
      refine ⟨fun topic kind => posted _ (recall' topic kind), fun kind => ⟨posted _ ?_, silent _ ?_ ?_⟩,
        fun kind => posted _ (epoch kind)⟩
      · rw [claim kind]
        exact List.mem_cons_self
      · rw [claim kind]
        rintro n listed ⟨reason, rfl⟩
        cases List.mem_singleton.mp listed
      · rintro n listed ⟨reason, rfl⟩
        obtain ⟨topic, same⟩ | same | same | same := leaveComplete_sorts listed <;> cases same
    · refine silent _ ?_ ?_
      · rw [jamOutcome_of_few few]
        exact fun n listed => absurd listed List.not_mem_nil
      · rintro n listed ⟨k, m, rfl⟩
        obtain ⟨topic, same⟩ | same | same | same := leaveComplete_sorts listed <;> cases same

end Sys2Proof.Machine
end
